-- ==== Sys2Proof/Word.lean ====
section
/-! DEFINITION. The word types of the ST6 core (00_scope.md R3, R6): 8-bit data, 12-bit program addresses. -/

namespace Sys2Proof

/-- A byte: A, X, Y, V, W, every data-space location, every operand byte (00_scope.md R3, DATA_WIDTH). -/
abbrev Byte := BitVec 8

/-- A 12-bit program address, also the content of a stack cell (00_scope.md R3, PC_WIDTH; 10_state.md R28). -/
abbrev PAddr := BitVec 12

/-- The number of a bit in a byte, 0 the least significant (00_scope.md R5). -/
abbrev BitNo := BitVec 3

/-- The 5-bit displacement field of JRC, JRNC, JRZ, JRNZ (30_encoding.md R82). -/
abbrev Disp5 := BitVec 5

end Sys2Proof
end

