-- ==== Sys2Proof/Config.lean ====
section
/-! DEFINITION. What the source leaves to the device or to the execution environment (00_scope.md R4): the parameters
of a device as plain data, and the free values, which are constants without a body. -/

namespace Sys2Proof

/-- The base of the JRR/JRS displacement, counted from the instruction's address (00_scope.md R4 `BT_BASE`, range 1, 2
or 3; 92_eei_decisions.md D4). Log entry 29. -/
inductive BtBase where
  | one
  | two
  | three
deriving DecidableEq, Repr

/-- What a seventh push does (00_scope.md R4 `STACK_OVERFLOW`; 10_state.md R29; 92_eei_decisions.md D7). Log entry 4. -/
inductive StackOverflow where
  /-- the machine stops with the model's fault `stackOverflow` -/
  | fault
  /-- the value pushed is lost -/
  | dropNew
  /-- the previous top is lost -/
  | overwriteTop
deriving DecidableEq, Repr

/-- The four registers that control the core (10_state.md R38). -/
inductive ControlReg where
  | ior
  | drwr
  | ramBank
  | romBank
deriving DecidableEq, Repr

/-- The peripheral registers the source names (10_state.md R39; 60_exceptions.md R246, R247), and `other n` for a
device with more of them. -/
inductive PeripheralReg where
  | dra
  | drb
  | drc
  | ddra
  | ddrb
  | ddrc
  | ora
  | orb
  | orc
  | adr
  | adcr
  | pscr
  | tcr
  | tscr
  | wdgr
  | other (n : Nat)
deriving DecidableEq, Repr

/-- What `DataMap` says of a data address where the device decides, at 84h-0FEh and, for each bank, at 00h-3Fh (00_scope.md
R4; 20_memory.md R50, R54). -/
inductive DataKind where
  | ram
  | peripheral (p : PeripheralReg)
  | control (c : ControlReg)
  | reserved
  | notImplemented
deriving DecidableEq, Repr

/-- A range of data addresses, both ends included, and what it is. -/
structure Region where
  lo : Nat
  hi : Nat
  kind : DataKind
deriving DecidableEq, Repr

/-- The interrupt requests: #0, the NMI, and the maskable #1 to #4 (60_exceptions.md R231, R232). -/
inductive Request where
  | nmi
  | int1
  | int2
  | int3
  | int4
deriving DecidableEq, Repr

/-- The value a bank register selects: the pairs list the register values whose selection is given. -/
abbrev SelectTable := List (Byte × Nat)

/-- A row of the table `RomWindow` (00_scope.md R4; 92_eei_decisions.md D16): while the control registers that it lists
hold the bytes it gives for them, the data address `addr` shows the program address `target`. -/
structure WindowRow where
  control : List (ControlReg × Byte)
  addr : Byte
  target : PAddr
deriving DecidableEq, Repr

/-- The device: the parameters of 00_scope.md R4 that are fixed for a machine. Log entries 3, 4, 15, 16, 17, 23, 29. -/
structure Device where
  /-- `BT_BASE` (D4) -/
  btBase : BtBase
  /-- `STACK_OVERFLOW` (D7) -/
  stackOverflow : StackOverflow
  /-- `WATCHDOG_SELECTED` (D21) -/
  watchdogSelected : Bool
  /-- `DataMap` at 84h-0FEh (D15, D17): the first range that holds an address says what it is; none, and it is not
  implemented -/
  dataMap : List Region
  /-- `DataMap` at 00h-3Fh (D17), "data RAM and I/O expansion": a range of the bank whose number stands before it, the
  first that holds an address; none, and the bank has nothing there -/
  pagedMap : List (Nat × Region)
  /-- `RomWindow` (D16), a function of the control registers and the data address, as a table: the first row that applies
  gives the program address; none, and it is that of the default `DRWR*64 + (a - 40h)` -/
  romWindow : List WindowRow
  /-- the bank of 00h-3Fh a value of the data RAM bank register selects, where it is not bank 0 (D17) -/
  ramBanks : SelectTable
  /-- the page of 000h-7FFh a value of the program ROM bank register selects, where it is not page 0 (D18) -/
  romPages : SelectTable
  /-- the requests that come from an external source, which alone can arrive while the core is stopped
  (60_exceptions.md R251) -/
  external : List Request
deriving DecidableEq, Repr

/-- FREE VALUE: the answer of the environment to its `n`-th read that no stored byte answers, at data address `a`
(20_memory.md R56, R54; 93_implementation_defined.md U6, U10). Log entry 11. -/
opaque Config.freeByte (n : Nat) (a : Byte) : Byte

/-- FREE VALUE: the byte that the `n`-th reset leaves in data RAM cell `k` (00_scope.md R4 `ResetValue`;
93_implementation_defined.md U8). Log entry 9. -/
opaque Config.ramAtReset (n k : Nat) : Byte

/-- FREE VALUE: the byte that the `n`-th reset leaves in register number `i` (10_state.md R42). Log entry 10. -/
opaque Config.registerAtReset (n i : Nat) : Byte

/-- FREE VALUE: the flag bit number `i` that the `n`-th reset leaves (10_state.md R42). Log entry 10. -/
opaque Config.flagAtReset (n i : Nat) : Bool

/-- FREE VALUE: the content of stack cell `i` that the `n`-th reset leaves (10_state.md R42). Log entry 10. -/
opaque Config.cellAtReset (n i : Nat) : PAddr

end Sys2Proof
end

