-- ==== Sys2Proof/Machine/Device.lean ====
section
/-! DEFINITION. Reading a device's parameters: `DataMap`, `RomWindow` and the bank selections (00_scope.md R4), and the
example device of Figures 2 and 3, whose parameters are the defaults of R4. -/

namespace Sys2Proof.Machine

/-- The core registers, locations of the data space (10_state.md R20). -/
inductive Reg where
  | a
  | x
  | y
  | v
  | w
deriving DecidableEq, Repr

/-- The data address of a core register (10_state.md R20; 00_scope.md R7). -/
def regAddr : Reg → Byte
  | .a => 0xFF#8
  | .x => 0x80#8
  | .y => 0x81#8
  | .v => 0x82#8
  | .w => 0x83#8

/-- The core register at a data address (10_state.md R20). -/
def regAt (a : Byte) : Option Reg :=
  if a = 0xFF#8 then some .a
  else if a = 0x80#8 then some .x
  else if a = 0x81#8 then some .y
  else if a = 0x82#8 then some .v
  else if a = 0x83#8 then some .w
  else none

/-- What a data address is: a core register or the data ROM window, which the core fixes for every device, or what the
device's `DataMap` says (20_memory.md R50). -/
inductive Place where
  | core (r : Reg)
  | romWindow
  | device (k : DataKind)
deriving DecidableEq, Repr

/-- The address lies in a range. -/
def regionHolds (g : Region) (a : Byte) : Bool := decide (g.lo ≤ a.toNat ∧ a.toNat ≤ g.hi)

/-- What the device's ranges say of an address outside the paged 00h-3Fh; an address in none of them is not
implemented. -/
def dataKindAt (d : Device) (a : Byte) : DataKind :=
  match d.dataMap.find? (fun g => regionHolds g a) with
  | some g => g.kind
  | none => .notImplemented

/-- What bank `bank` of the device has at an address of 00h-3Fh (20_memory.md R50); where it has nothing, the address is
not implemented while that bank is selected. -/
def pagedKindAt (d : Device) (bank : Nat) (a : Byte) : DataKind :=
  match d.pagedMap.find? (fun p => decide (p.1 = bank) && regionHolds p.2 a) with
  | some p => p.2.kind
  | none => .notImplemented

/-- The address is one of the lowest 64, which are paged (20_memory.md R50). -/
def isPaged (a : Byte) : Bool := decide (a.toNat < 0x40)

/-- `DataMap` (00_scope.md R4; 20_memory.md R50, R54) with bank `bank` of 00h-3Fh selected. The core fixes 80h-83h and
0FFh (R56: "Locations 80h-83h and 0FFh are never peripheral") and the window 40h-7Fh for every device; log entry 37 on the
worked examples that write 45h. -/
def placeOf (d : Device) (bank : Nat) (a : Byte) : Place :=
  match regAt a with
  | some r => .core r
  | none =>
    if isPaged a then .device (pagedKindAt d bank a)
    else if a.toNat < 0x80 then .romWindow
    else .device (dataKindAt d a)

/-- What a register value selects: the first pair of the table with that value, else `other`. -/
def selected (t : SelectTable) (v : Byte) (other : Nat) : Nat :=
  match t.find? (fun p => decide (p.1 = v)) with
  | some p => p.2
  | none => other

/-- The base of the JRR/JRS displacement as a number (00_scope.md R4 `BT_BASE`). -/
def btBaseOffset : BtBase → PAddr
  | .one => 1#12
  | .two => 2#12
  | .three => 3#12

/-- The data map of Figure 2, "ST6 Data Space Example" (10_state.md R39), at 84h-0FEh: the default `DataMap`
(92_eei_decisions.md D17). The addresses 0C0h-0D8h of single registers are those obtained by counting. Log entry 18. -/
def figure2Map : List Region :=
  [ ⟨0x84, 0xBF, .ram⟩,
    ⟨0xC0, 0xC0, .peripheral .dra⟩,
    ⟨0xC1, 0xC1, .peripheral .drb⟩,
    ⟨0xC2, 0xC2, .peripheral .drc⟩,
    ⟨0xC3, 0xC3, .reserved⟩,
    ⟨0xC4, 0xC4, .peripheral .ddra⟩,
    ⟨0xC5, 0xC5, .peripheral .ddrb⟩,
    ⟨0xC6, 0xC6, .peripheral .ddrc⟩,
    ⟨0xC7, 0xC7, .reserved⟩,
    ⟨0xC8, 0xC8, .control .ior⟩,
    ⟨0xC9, 0xC9, .control .drwr⟩,
    ⟨0xCA, 0xCB, .reserved⟩,
    ⟨0xCC, 0xCC, .peripheral .ora⟩,
    ⟨0xCD, 0xCD, .peripheral .orb⟩,
    ⟨0xCE, 0xCE, .peripheral .orc⟩,
    ⟨0xCF, 0xCF, .reserved⟩,
    ⟨0xD0, 0xD0, .peripheral .adr⟩,
    ⟨0xD1, 0xD1, .peripheral .adcr⟩,
    ⟨0xD2, 0xD2, .peripheral .pscr⟩,
    ⟨0xD3, 0xD3, .peripheral .tcr⟩,
    ⟨0xD4, 0xD4, .peripheral .tscr⟩,
    ⟨0xD5, 0xD7, .reserved⟩,
    ⟨0xD8, 0xD8, .peripheral .wdgr⟩,
    ⟨0xD9, 0xFE, .reserved⟩ ]

/-- The device of State.reset: the default of every parameter of 00_scope.md R4 (`BT_BASE` 2, `drop_new`, no watchdog,
Figure 2, `DRWR*64 + (a - 40h)`, no banking), with the external sources of Figure 3's example, the NMI pin and the ports
(60_exceptions.md R251). DESIGN CHOICE where R4 leaves the value open. Log entries 3, 4, 15, 16, 17, 23, 29. -/
def exampleDevice : Device :=
  { btBase := .two
    stackOverflow := .dropNew
    watchdogSelected := false
    dataMap := figure2Map
    pagedMap := []
    romWindow := []
    ramBanks := []
    romPages := []
    external := [.nmi, .int1, .int2] }

end Sys2Proof.Machine
end

