-- ==== Sys2Proof/Machine/Memory.lean ====
section
/-! DEFINITION. A memory as a list of (cell number, byte) pairs in one canonical form: cell numbers strictly rising. An
unlisted cell holds NO value of its own: what a read of it gives is said where the memory is used (data RAM: log entry
9; program memory: log entry 2). So no entry can equal what an unlisted cell reads as, and two memories that list the
same bytes are equal data. -/

namespace Sys2Proof.Machine

/-- Bytes by cell number, cell numbers strictly rising (`Memory.wf`). -/
abbrev Memory := List Host.Cell

/-- The byte listed for cell `k`. -/
def Memory.read (m : Memory) (k : Nat) : Option Byte :=
  match m with
  | [] => none
  | (j, w) :: rest => if j = k then some w else Memory.read rest k

/-- `m` with byte `v` in cell `k`. -/
def Memory.write (m : Memory) (k : Nat) (v : Byte) : Memory :=
  match m with
  | [] => [(k, v)]
  | (j, w) :: rest =>
    if k < j then (k, v) :: (j, w) :: rest
    else if k = j then (k, v) :: rest
    else (j, w) :: Memory.write rest k v

/-- The canonical form: cell numbers strictly rising. -/
abbrev Memory.wf (m : Memory) : Prop := m.Pairwise (fun p q => p.1 < q.1)

end Sys2Proof.Machine
end

