-- ==== Sys2Proof/Syntax.lean ====
section
/-! DEFINITION. The instructions: one constructor per row of the opcode table. Register numbers, pointer selectors and
bit numbers are already decoded here; the encodings are in Decode.lean. -/

namespace Sys2Proof

/-- The short-direct registers, in the order of op[7:6] (30_encoding.md R85). -/
inductive ShortReg where
  | x
  | y
  | v
  | w
deriving DecidableEq, Repr

/-- The indirect register pointers, selected by op[3] (30_encoding.md R86; 90_conflicts.md C3). -/
inductive Pointer where
  | x
  | y
deriving DecidableEq, Repr

/-- An instruction: the 42 instruction rows, the 12 illegal opcodes (30_encoding.md R95) and the 37 written forms
(30_encoding.md R99), each of which is another instruction with a fixed operand. Operands: `e` and `ee` are the
displacement fields as encoded, `abc` the 12-bit address, `rr` a data address, `nn` immediate data, `b` the bit
operated on (bit order already restored), `r` a short-direct register, `ptr` a pointer register. -/
inductive Instr where
  /-- JRNZ e (42_conditional_branch.md R174) -/
  | jrnz (e : Disp5)
  /-- JRNC e (42_conditional_branch.md R172) -/
  | jrnc (e : Disp5)
  /-- JRZ e (42_conditional_branch.md R173) -/
  | jrz (e : Disp5)
  /-- JRC e (42_conditional_branch.md R171) -/
  | jrc (e : Disp5)
  /-- CALL abc (45_jump_call.md R220) -/
  | call (abc : PAddr)
  /-- JP abc (45_jump_call.md R221) -/
  | jp (abc : PAddr)
  /-- JRR b,rr,ee (42_conditional_branch.md R176) -/
  | jrr (b : BitNo) (rr ee : Byte)
  /-- JRS b,rr,ee (42_conditional_branch.md R177) -/
  | jrs (b : BitNo) (rr ee : Byte)
  /-- RES b,rr (43_bit_manipulation.md R190) -/
  | res (b : BitNo) (rr : Byte)
  /-- SET b,rr (43_bit_manipulation.md R191) -/
  | set (b : BitNo) (rr : Byte)
  /-- INC r (41_arithmetic_logic.md R145) -/
  | incReg (r : ShortReg)
  /-- LD A,r (40_load_store.md R110) -/
  | ldAReg (r : ShortReg)
  /-- DEC r (41_arithmetic_logic.md R142) -/
  | decReg (r : ShortReg)
  /-- LD r,A (40_load_store.md R111) -/
  | ldRegA (r : ShortReg)
  /-- LDI rr,nn (40_load_store.md R117) -/
  | ldiDir (rr nn : Byte)
  /-- COM A (41_arithmetic_logic.md R138) -/
  | comA
  /-- RETI (44_control.md R202) -/
  | reti
  /-- STOP (44_control.md R205) -/
  | stop
  /-- RLC A (41_arithmetic_logic.md R148) -/
  | rlcA
  /-- RET (44_control.md R201) -/
  | ret
  /-- WAIT (44_control.md R206) -/
  | wait
  /-- LD A,(X) and LD A,(Y) (40_load_store.md R112) -/
  | ldAInd (ptr : Pointer)
  /-- LDI A,nn (40_load_store.md R116) -/
  | ldiA (nn : Byte)
  /-- LD A,rr (40_load_store.md R114) -/
  | ldADir (rr : Byte)
  /-- CP A,(X) and CP A,(Y) (41_arithmetic_logic.md R139) -/
  | cpAInd (ptr : Pointer)
  /-- CPI A,nn (41_arithmetic_logic.md R141) -/
  | cpiA (nn : Byte)
  /-- CP A,rr (41_arithmetic_logic.md R140) -/
  | cpADir (rr : Byte)
  /-- ADD A,(X) and ADD A,(Y) (41_arithmetic_logic.md R130) -/
  | addAInd (ptr : Pointer)
  /-- ADDI A,nn (41_arithmetic_logic.md R132) -/
  | addiA (nn : Byte)
  /-- ADD A,rr (41_arithmetic_logic.md R131) -/
  | addADir (rr : Byte)
  /-- INC (X) and INC (Y) (41_arithmetic_logic.md R146) -/
  | incInd (ptr : Pointer)
  /-- INC rr (41_arithmetic_logic.md R147) -/
  | incDir (rr : Byte)
  /-- LD (X),A and LD (Y),A (40_load_store.md R113) -/
  | ldIndA (ptr : Pointer)
  /-- LD rr,A (40_load_store.md R115) -/
  | ldDirA (rr : Byte)
  /-- AND A,(X) and AND A,(Y) (41_arithmetic_logic.md R133) -/
  | andAInd (ptr : Pointer)
  /-- ANDI A,nn (41_arithmetic_logic.md R135) -/
  | andiA (nn : Byte)
  /-- AND A,rr (41_arithmetic_logic.md R134) -/
  | andADir (rr : Byte)
  /-- SUB A,(X) and SUB A,(Y) (41_arithmetic_logic.md R150) -/
  | subAInd (ptr : Pointer)
  /-- SUBI A,nn (41_arithmetic_logic.md R152) -/
  | subiA (nn : Byte)
  /-- SUB A,rr (41_arithmetic_logic.md R151) -/
  | subADir (rr : Byte)
  /-- DEC (X) and DEC (Y) (41_arithmetic_logic.md R143) -/
  | decInd (ptr : Pointer)
  /-- DEC rr (41_arithmetic_logic.md R144) -/
  | decDir (rr : Byte)
  /-- the illegal opcode 05h (30_encoding.md R95) -/
  | illegal05
  /-- the illegal opcode 25h (30_encoding.md R95) -/
  | illegal25
  /-- the illegal opcode 45h (30_encoding.md R95) -/
  | illegal45
  /-- the illegal opcode 65h (30_encoding.md R95) -/
  | illegal65
  /-- the illegal opcode 85h (30_encoding.md R95) -/
  | illegal85
  /-- the illegal opcode A5h (30_encoding.md R95) -/
  | illegalA5
  /-- the illegal opcode C5h (30_encoding.md R95) -/
  | illegalC5
  /-- the illegal opcode E5h (30_encoding.md R95) -/
  | illegalE5
  /-- the illegal opcode 77h (30_encoding.md R95) -/
  | illegal77
  /-- the illegal opcode 97h (30_encoding.md R95) -/
  | illegal97
  /-- the illegal opcode F7h (30_encoding.md R95) -/
  | illegalF7
  /-- the illegal opcode 8Dh (30_encoding.md R95) -/
  | illegal8D
  /-- NOP, opcode 04h, written for `jrz 0x00#5` (44_control.md R200) -/
  | nop
  /-- CLR A, written for `subADir 0xFF#8` (41_arithmetic_logic.md R136) -/
  | clrA
  /-- CLR rr, written for `ldiDir rr 0x00#8` (41_arithmetic_logic.md R137) -/
  | clrDir (rr : Byte)
  /-- SLA A, written for `addADir 0xFF#8` (41_arithmetic_logic.md R149) -/
  | slaA
  /-- INC A, written for `incDir 0xFF#8` (41_arithmetic_logic.md R147) -/
  | incA
  /-- DEC A, written for `decDir 0xFF#8` (41_arithmetic_logic.md R144) -/
  | decA
  /-- LD A,A, written for `ldADir 0xFF#8` (40_load_store.md R114) -/
  | ldAA
  /-- ADD A,A, written for `addADir 0xFF#8` (41_arithmetic_logic.md R131) -/
  | addAA
  /-- ADD A,X, written for `addADir 0x80#8` (41_arithmetic_logic.md R131) -/
  | addAX
  /-- ADD A,Y, written for `addADir 0x81#8` (41_arithmetic_logic.md R131) -/
  | addAY
  /-- ADD A,V, written for `addADir 0x82#8` (41_arithmetic_logic.md R131) -/
  | addAV
  /-- ADD A,W, written for `addADir 0x83#8` (41_arithmetic_logic.md R131) -/
  | addAW
  /-- AND A,A, written for `andADir 0xFF#8` (41_arithmetic_logic.md R134) -/
  | andAA
  /-- AND A,X, written for `andADir 0x80#8` (41_arithmetic_logic.md R134) -/
  | andAX
  /-- AND A,Y, written for `andADir 0x81#8` (41_arithmetic_logic.md R134) -/
  | andAY
  /-- AND A,V, written for `andADir 0x82#8` (41_arithmetic_logic.md R134) -/
  | andAV
  /-- AND A,W, written for `andADir 0x83#8` (41_arithmetic_logic.md R134) -/
  | andAW
  /-- CP A,A, written for `cpADir 0xFF#8` (41_arithmetic_logic.md R140) -/
  | cpAA
  /-- CP A,X, written for `cpADir 0x80#8` (41_arithmetic_logic.md R140) -/
  | cpAX
  /-- CP A,Y, written for `cpADir 0x81#8` (41_arithmetic_logic.md R140) -/
  | cpAY
  /-- CP A,V, written for `cpADir 0x82#8` (41_arithmetic_logic.md R140) -/
  | cpAV
  /-- CP A,W, written for `cpADir 0x83#8` (41_arithmetic_logic.md R140) -/
  | cpAW
  /-- SUB A,A, written for `subADir 0xFF#8` (41_arithmetic_logic.md R151) -/
  | subAA
  /-- SUB A,X, written for `subADir 0x80#8` (41_arithmetic_logic.md R151) -/
  | subAX
  /-- SUB A,Y, written for `subADir 0x81#8` (41_arithmetic_logic.md R151) -/
  | subAY
  /-- SUB A,V, written for `subADir 0x82#8` (41_arithmetic_logic.md R151) -/
  | subAV
  /-- SUB A,W, written for `subADir 0x83#8` (41_arithmetic_logic.md R151) -/
  | subAW
  /-- RES b,A, written for `res b 0xFF#8` (43_bit_manipulation.md R190) -/
  | resA (b : BitNo)
  /-- SET b,A, written for `set b 0xFF#8` (43_bit_manipulation.md R191) -/
  | setA (b : BitNo)
  /-- LDI X,nn, written for `ldiDir 0x80#8 nn` (40_load_store.md R117) -/
  | ldiX (nn : Byte)
  /-- CLR X, written for `ldiDir 0x80#8 0x00#8` (41_arithmetic_logic.md R137) -/
  | clrX
  /-- LDI Y,nn, written for `ldiDir 0x81#8 nn` (40_load_store.md R117) -/
  | ldiY (nn : Byte)
  /-- CLR Y, written for `ldiDir 0x81#8 0x00#8` (41_arithmetic_logic.md R137) -/
  | clrY
  /-- LDI V,nn, written for `ldiDir 0x82#8 nn` (40_load_store.md R117) -/
  | ldiV (nn : Byte)
  /-- CLR V, written for `ldiDir 0x82#8 0x00#8` (41_arithmetic_logic.md R137) -/
  | clrV
  /-- LDI W,nn, written for `ldiDir 0x83#8 nn` (40_load_store.md R117) -/
  | ldiW (nn : Byte)
  /-- CLR W, written for `ldiDir 0x83#8 0x00#8` (41_arithmetic_logic.md R137) -/
  | clrW
deriving DecidableEq, Repr

end Sys2Proof
end

