-- ==== Sys2Proof/Machine/State.lean ====
section
/-! DEFINITION. The state of the machine as plain data (10_state.md), the reasons a step can stop, and the state after
reset (10_state.md R42). -/

namespace Sys2Proof.Machine

/-- The five core registers (10_state.md R20), at data addresses 0FFh, 80h, 81h, 82h, 83h. -/
structure Regs where
  a : Byte
  x : Byte
  y : Byte
  v : Byte
  w : Byte
deriving DecidableEq, Repr

/-- The hardware stack: six cells, level 1 the top, and how many return addresses are stacked (10_state.md R28). -/
structure Stack where
  l1 : PAddr
  l2 : PAddr
  l3 : PAddr
  l4 : PAddr
  l5 : PAddr
  l6 : PAddr
  /-- `lvl`, 0 to 6 -/
  level : Nat
deriving DecidableEq, Repr

/-- One pair of status flags (10_state.md R31). -/
structure FlagPair where
  z : Bool
  c : Bool
deriving DecidableEq, Repr

/-- The three flag pairs (10_state.md R31): ZN CN, ZI CI, ZM CM. -/
structure Flags where
  normal : FlagPair
  int : FlagPair
  nmi : FlagPair
deriving DecidableEq, Repr

/-- The four modes (10_state.md R36). -/
inductive Mode where
  | normal
  | int
  | nmiFromNormal
  | nmiFromInt
deriving DecidableEq, Repr

/-- The run state (10_state.md R37). -/
inductive Run where
  | running
  | waiting
  | stopped
deriving DecidableEq, Repr

/-- The byte last written to each register that controls the core (10_state.md R38). Their layouts are not in the
source; the device's tables say what a value selects. -/
structure Control where
  ior : Byte
  drwr : Byte
  ramBank : Byte
  romBank : Byte
deriving DecidableEq, Repr

/-- What the environment presents at one instruction boundary (60_exceptions.md R233, R234, R237). Log entries 19, 20. -/
structure Boundary where
  /-- the reset input is asserted -/
  reset : Bool
  /-- `Pending`: the requests presented -/
  pending : List Request
  /-- `IntEnabled`: the global enable of #1 to #4 -/
  intEnabled : Bool
  /-- `NmiEnabled`: whether the NMI is not held back -/
  nmiEnabled : Bool
deriving DecidableEq, Repr

/-- What the core tells the environment (20_memory.md R56; 60_exceptions.md R238). Log entry 35. -/
inductive Event where
  /-- a read of a peripheral or control register -/
  | read (a : Byte)
  /-- a write to a peripheral or control register -/
  | write (a v : Byte)
  /-- `Acknowledge(n)` -/
  | acknowledge (n : Request)
deriving DecidableEq, Repr

/-- The machine's state (10_state.md section 1). -/
structure State where
  /-- the parameters of the device, which no step changes -/
  device : Device
  /-- A, X, Y, V, W -/
  regs : Regs
  /-- the program counter: at an instruction boundary, the address of the next instruction -/
  pc : PAddr
  stack : Stack
  flags : Flags
  mode : Mode
  run : Run
  /-- data RAM; cell numbers are those of `ramCell` -/
  ram : Memory
  control : Control
  /-- program memory, which no step changes; cell numbers are those of `romCell` -/
  rom : Memory
  /-- what the environment presents at the boundaries to come; after the last one it presents nothing -/
  inputs : List Boundary
  /-- what the core has told the environment, newest first -/
  events : List Event
  /-- the model's own field: how many free bytes have been answered -/
  draws : Nat
  /-- the model's own field: how many times the reset input has drawn reset values -/
  epoch : Nat
deriving DecidableEq, Repr

/-- Why the machine stops. The hardware raises no synchronous exception (60_exceptions.md R230): these are the spec's
`ModelFault`s, each where the source gives no behaviour. -/
inductive Fault where
  /-- One of the twelve illegal opcodes is executed (30_encoding.md R95). Raised by the meanings of the illegal rows.
  Safe: the machine stops where the source says nothing. -/
  | illegalOpcode (op : Byte)
  /-- An instruction byte is fetched from an address that the program image does not implement (20_memory.md R69). Raised
  by `step`. Safe: the machine stops where the source says nothing. -/
  | fetchUnimplemented (a : PAddr)
  /-- A seventh return address is pushed on a device whose `STACK_OVERFLOW` is `fault` (10_state.md R29). Raised by
  `CALL` and by interrupt entry. Safe: the machine stops where the source leaves two designs open. -/
  | stackOverflow
deriving DecidableEq, Repr

/-- Why a step has no meaning. -/
inductive Refusal where
  /-- An instruction the model gives no meaning. Raised by no arm: every instruction has its meaning. Safe. -/
  | notModelled (mnemonic : String)
deriving DecidableEq, Repr

/-- The outcome of a step. -/
abbrev Result := Host.Outcome State Fault Refusal

/-- The machine right after reset (10_state.md R42; 70_reset_and_hazards.md R270). From the spec: pc and mode as
the source states them, stack level 0 (decision D13) and Running as R42 derives them (log entry 39). DESIGN CHOICE, where the spec gives no value: 0 in the registers (log entry 5), flags (6), stack cells (7)
and control registers (8), nothing listed in data RAM (9), the example device (3), no program (1), a quiet environment
(19), empty logs and counters (11, 35). -/
def State.reset : State :=
  { device := exampleDevice
    regs := ⟨0x00#8, 0x00#8, 0x00#8, 0x00#8, 0x00#8⟩
    pc := 0xFFE#12
    stack := ⟨0x000#12, 0x000#12, 0x000#12, 0x000#12, 0x000#12, 0x000#12, 0⟩
    flags := ⟨⟨false, false⟩, ⟨false, false⟩, ⟨false, false⟩⟩
    mode := .nmiFromNormal
    run := .running
    ram := []
    control := ⟨0x00#8, 0x00#8, 0x00#8, 0x00#8⟩
    rom := []
    inputs := []
    events := []
    draws := 0
    epoch := 0 }

end Sys2Proof.Machine
end

