-- ==== Sys2Proof/Machine/Ops.lean ====
section
/-! DEFINITION. The named operations over registers, data space, program space and stack, and taking an interrupt,
returning from one and the reset input as one operation each. -/

namespace Sys2Proof.Machine

/-! ### Updates of one field -/

def State.setRegs (s : State) (r : Regs) : State := { s with regs := r }
def State.setPc (s : State) (t : PAddr) : State := { s with pc := t }
def State.setStack (s : State) (k : Stack) : State := { s with stack := k }
def State.setFlags (s : State) (f : Flags) : State := { s with flags := f }
def State.setMode (s : State) (m : Mode) : State := { s with mode := m }
def State.setRun (s : State) (r : Run) : State := { s with run := r }
def State.setRam (s : State) (m : Memory) : State := { s with ram := m }
def State.setControl (s : State) (c : Control) : State := { s with control := c }
def State.setRom (s : State) (m : Memory) : State := { s with rom := m }
def State.setInputs (s : State) (bs : List Boundary) : State := { s with inputs := bs }
def State.emit (s : State) (e : Event) : State := { s with events := e :: s.events }
def State.countDraw (s : State) : State := { s with draws := s.draws + 1 }
def State.countReset (s : State) : State := { s with epoch := s.epoch + 1 }

/-! ### Registers -/

/-- `x[r]` (00_scope.md R7). -/
def Regs.get (g : Regs) : Reg → Byte
  | .a => g.a
  | .x => g.x
  | .y => g.y
  | .v => g.v
  | .w => g.w

/-- The registers after `x[r] <- v` (00_scope.md R7). -/
def Regs.set (g : Regs) (r : Reg) (v : Byte) : Regs :=
  match r with
  | .a => { g with a := v }
  | .x => { g with x := v }
  | .y => { g with y := v }
  | .v => { g with v := v }
  | .w => { g with w := v }

/-- `x[r] <- v` (00_scope.md R7). -/
def State.setReg (s : State) (r : Reg) (v : Byte) : State := s.setRegs (s.regs.set r v)

/-- The byte last written to a register that controls the core (10_state.md R38). -/
def Control.get (k : Control) : ControlReg → Byte
  | .ior => k.ior
  | .drwr => k.drwr
  | .ramBank => k.ramBank
  | .romBank => k.romBank

/-- The control bytes after a write to one of them (10_state.md R38). -/
def Control.set (k : Control) (c : ControlReg) (v : Byte) : Control :=
  match c with
  | .ior => { k with ior := v }
  | .drwr => { k with drwr := v }
  | .ramBank => { k with ramBank := v }
  | .romBank => { k with romBank := v }

/-! ### Program space -/

/-- The cell of program memory behind a 12-bit address: 800h-0FFFh always the same, 000h-7FFh in the page that the
program ROM bank register selects (20_memory.md R51). Log entry 17. -/
def romCell (s : State) (a : PAddr) : Nat :=
  if 0x800 ≤ a.toNat then a.toNat else 4096 * selected s.device.romPages s.control.romBank 0 + a.toNat

/-- `Fetch(a)`, `ProgMap(state, a)`: the byte, or none where the image implements nothing (20_memory.md R69). Log entry 2.
DESIGN CHOICE: every byte that the image lists is fetched, also in an area that a ROM or OTP part reserves; the model does
not refuse an image with code there (20_memory.md R57; 93_implementation_defined.md U11; log entry 42). -/
def fetchByte (s : State) (a : PAddr) : Option Byte := s.rom.read (romCell s a)

/-- The row is for this data address, and the control registers it lists hold the bytes it gives. -/
def windowRowApplies (k : Control) (a : Byte) (r : WindowRow) : Bool :=
  decide (r.addr = a) && r.control.all (fun p => decide (k.get p.1 = p.2))

/-- The default of `RomWindow`, `DRWR*64 + (a - 40h)`, from general knowledge (20_memory.md R53; 92_eei_decisions.md D16).
PRESUMED; log entry 15. -/
def defaultWindowAddress (drwr a : Byte) : PAddr := BitVec.ofNat 12 (64 * drwr.toNat + (a.toNat - 0x40))

/-- `RomWindow(state, a)`, the program address that data address `a` of 40h-7Fh shows (00_scope.md R4; 20_memory.md R53;
92_eei_decisions.md D16): by the device's table, or the default where no row of it applies. Log entry 15. DESIGN CHOICE: a
write to DRWR takes effect at the very next read of the window; the spec leaves its timing open
(93_implementation_defined.md U10; log entry 38). -/
def windowAddress (s : State) (a : Byte) : PAddr :=
  match s.device.romWindow.find? (windowRowApplies s.control a) with
  | some r => r.target
  | none => defaultWindowAddress s.control.drwr a

/-! ### Data space -/

/-- The bank of 00h-3Fh that the data RAM bank register selects (20_memory.md R50). DESIGN CHOICE: bank 0 where the
device's table has no entry, and a write takes effect at the next access. Log entry 16. -/
def State.bank (s : State) : Nat := selected s.device.ramBanks s.control.ramBank 0

/-- What the data address `a` is: `DataMap(state, a)` (00_scope.md R4; 20_memory.md R54). -/
def State.place (s : State) (a : Byte) : Place := placeOf s.device s.bank a

/-- The cell of data RAM behind a data address: each bank of 00h-3Fh has cells of its own (20_memory.md R50, R54). -/
def ramCell (s : State) (a : Byte) : DataKind → Option Nat
  | .ram => some (if isPaged a then 256 * (s.bank + 1) + a.toNat else a.toNat)
  | _ => none

/-- The byte that data RAM cell `k` holds: the byte last written, or the byte that the last reset left there, a free
value (93_implementation_defined.md U8). Log entry 9. -/
def ramByte (s : State) (k : Nat) : Byte := (s.ram.read k).getD (Config.ramAtReset s.epoch k)

/-- The byte that a stored location holds: a core register, RAM, or the program byte that the ROM window shows
(20_memory.md R54). None where no stored byte answers a read. -/
def storedByte (s : State) (a : Byte) : Option Byte :=
  match s.place a with
  | .core r => some (s.regs.get r)
  | .romWindow => fetchByte s (windowAddress s a)
  | .device k => (ramCell s a k).map (ramByte s)

/-- `MemRead(a, 1)`, the value (20_memory.md R54): the stored byte, or the environment's answer, a free value (R56;
93_implementation_defined.md U6, U10). Log entries 11, 12, 14. -/
def dataValue (s : State) (a : Byte) : Byte := (storedByte s a).getD (Config.freeByte s.draws a)

/-- `MemRead(a, 1)`, the state after it: a stored location is read without side effect (20_memory.md R56); a free value
is counted; a read of a peripheral or control register is told to the environment. Log entries 11, 35. -/
def afterRead (s : State) (a : Byte) : State :=
  match storedByte s a with
  | some _ => s
  | none =>
    match s.place a with
    | .device (.peripheral _) => (s.emit (.read a)).countDraw
    | .device (.control _) => (s.emit (.read a)).countDraw
    | _ => s.countDraw

/-- `MemWrite(a, 1, v)` (20_memory.md R55): a write to a peripheral or control register is told to the environment
(R56), a control register keeps the byte for the device's tables (10_state.md R38) and the tables see it at once (DESIGN
CHOICE; log entries 16, 17, 38), a write to the ROM window or to a reserved or unimplemented address is ignored
(93_implementation_defined.md U6, U7). Log entries 8, 12, 13, 35. -/
def writeData (s : State) (a v : Byte) : State :=
  match s.place a with
  | .core r => s.setReg r v
  | .device (.peripheral _) => s.emit (.write a v)
  | .device (.control c) => (s.setControl (s.control.set c v)).emit (.write a v)
  | .romWindow => s
  | .device k =>
    match ramCell s a k with
    | some j => s.setRam (s.ram.write j v)
    | none => s

/-! ### Program counter -/

/-- `pc <- pc + n`, modulo 4096 (10_state.md R25, R27). -/
def State.advance (s : State) (n : PAddr) : State := s.setPc (s.pc + n)

/-! ### Stack -/

/-- `Push(v)` (10_state.md R29): none is the fault `StackOverflow`. -/
def pushed (o : StackOverflow) (k : Stack) (v : PAddr) : Option Stack :=
  if k.level < 6 then some ⟨v, k.l1, k.l2, k.l3, k.l4, k.l5, k.level + 1⟩
  else
    match o with
    | .fault => none
    | .dropNew => some k
    | .overwriteTop => some { k with l1 := v }

/-- `Pop()` (10_state.md R30): none is `empty`. Level 6 keeps its old bits. -/
def popped (k : Stack) : Option (PAddr × Stack) :=
  if k.level = 0 then none else some (k.l1, ⟨k.l2, k.l3, k.l4, k.l5, k.l6, k.l6, k.level - 1⟩)

/-- Push a return address, then go to `t` (45_jump_call.md R220; 60_exceptions.md R238). -/
def pushAndGo (s : State) (v t : PAddr) : Result :=
  match pushed s.device.stackOverflow s.stack v with
  | some k => .next ((s.setStack k).setPc t)
  | none => .fault .stackOverflow

/-- Return to the popped address, or to the next instruction if the stack is empty (44_control.md R201, R203). -/
def popAndReturn (s : State) : State :=
  match popped s.stack with
  | some (v, k) => (s.setStack k).setPc v
  | none => s.advance 1#12

/-! ### Taking an interrupt and returning from one -/

/-- The interrupt mask, set exactly when the mode is not Normal (10_state.md R36; 60_exceptions.md R242). -/
def Mode.interruptMask : Mode → Bool
  | .normal => false
  | .int => true
  | .nmiFromNormal => true
  | .nmiFromInt => true

/-- The NMI mask, set exactly in the two NMI modes (10_state.md R36; 60_exceptions.md R242). -/
def Mode.nmiMask : Mode → Bool
  | .normal => false
  | .int => false
  | .nmiFromNormal => true
  | .nmiFromInt => true

/-- The manual's number of a request, the event's code (60_exceptions.md R232). -/
def requestNumber : Request → Nat
  | .nmi => 0
  | .int1 => 1
  | .int2 => 2
  | .int3 => 3
  | .int4 => 4

/-- `Vector(n)` (60_exceptions.md R232; 20_memory.md R52). -/
def vector : Request → PAddr
  | .nmi => 0xFFC#12
  | .int1 => 0xFF6#12
  | .int2 => 0xFF4#12
  | .int3 => 0xFF2#12
  | .int4 => 0xFF0#12

/-- The mode after the entry to request `n` (60_exceptions.md R238). -/
def modeOnEntry (n : Request) (m : Mode) : Mode :=
  match n with
  | .nmi =>
    match m with
    | .normal => .nmiFromNormal
    | _ => .nmiFromInt
  | _ => .int

/-- The mode after RETI (44_control.md R202, R204). -/
def modeOnReturn : Mode → Mode
  | .int => .normal
  | .nmiFromNormal => .normal
  | .nmiFromInt => .int
  | .normal => .normal

/-- `TakeInterrupt(n)` (60_exceptions.md R238): the pc is stacked, the mode (and with it the active flag pair and the
masks) changes, the pc goes to the vector, the core runs, and the environment is told. Nothing else changes. -/
def takeInterrupt (n : Request) (s : State) : Result :=
  pushAndGo ((((s.setMode (modeOnEntry n s.mode)).setRun .running).emit (.acknowledge n))) s.pc (vector n)

/-- The return from an interrupt (44_control.md R202 to R204; 60_exceptions.md R240): the mode steps back one level, and
the pc is popped as by RET. -/
def returnFromInterrupt (s : State) : State := (popAndReturn s).setMode (modeOnReturn s.mode)

/-! ### Reset -/

/-- Every register after the `n`-th reset: unspecified, free values (10_state.md R42). Log entry 10. -/
def regsAtReset (n : Nat) : Regs :=
  ⟨Config.registerAtReset n 0, Config.registerAtReset n 1, Config.registerAtReset n 2, Config.registerAtReset n 3,
    Config.registerAtReset n 4⟩

/-- The stack after the `n`-th reset: level 0, the cells unspecified (10_state.md R42). Log entry 10. -/
def stackAtReset (n : Nat) : Stack :=
  ⟨Config.cellAtReset n 1, Config.cellAtReset n 2, Config.cellAtReset n 3, Config.cellAtReset n 4,
    Config.cellAtReset n 5, Config.cellAtReset n 6, 0⟩

/-- The flags after the `n`-th reset: unspecified (10_state.md R42). Log entry 10. -/
def flagsAtReset (n : Nat) : Flags :=
  ⟨⟨Config.flagAtReset n 0, Config.flagAtReset n 1⟩, ⟨Config.flagAtReset n 2, Config.flagAtReset n 3⟩,
    ⟨Config.flagAtReset n 4, Config.flagAtReset n 5⟩⟩

/-- The control registers after the `n`-th reset: not in the source (10_state.md R42). Log entry 10. -/
def controlAtReset (n : Nat) : Control :=
  ⟨Config.registerAtReset n 5, Config.registerAtReset n 6, Config.registerAtReset n 7, Config.registerAtReset n 8⟩

/-- `Reset()`, the effect of the reset input (70_reset_and_hazards.md R270; 60_exceptions.md R237): pc, mode, stack level
and run state as stated, every other piece of the core's state unspecified, data RAM among it (60_exceptions.md R251).
The device, the program and the environment are no state of the core and stay. Log entries 10, 39. -/
def resetInput (s : State) : State :=
  { s with
    pc := 0xFFE#12
    mode := .nmiFromNormal
    run := .running
    stack := stackAtReset (s.epoch + 1)
    regs := regsAtReset (s.epoch + 1)
    flags := flagsAtReset (s.epoch + 1)
    control := controlAtReset (s.epoch + 1)
    ram := []
    epoch := s.epoch + 1 }

end Sys2Proof.Machine
end

