-- ==== Sys2Proof/Machine/Boundary.lean ====
section
/-! DEFINITION. What happens at an instruction boundary (60_exceptions.md R233 to R237). -/

namespace Sys2Proof.Machine

/-- A boundary at which the environment presents nothing. -/
def quiet : Boundary := ⟨false, [], false, true⟩

/-- What the environment presents at the boundary the core is at. Log entry 19. -/
def presented (s : State) : Boundary := s.inputs.headD quiet

/-- The state once the boundary is past. -/
def pastBoundary (s : State) : State := s.setInputs s.inputs.tail

/-- `Pending(state)`; a stopped core is presented requests from external sources only (60_exceptions.md R251; log entry
23). -/
def isPending (s : State) (n : Request) : Bool :=
  (presented s).pending.contains n && (s.run != .stopped || s.device.external.contains n)

/-- Whether request `n` would be accepted if it is pending: the mode's masks and the enables (60_exceptions.md R234). -/
def isUnmasked (s : State) (n : Request) : Bool :=
  match n with
  | .nmi => !s.mode.nmiMask && (presented s).nmiEnabled
  | _ => !s.mode.interruptMask && (presented s).intEnabled

/-- `n in Accept(state)` (60_exceptions.md R234). -/
def accepts (s : State) (n : Request) : Bool := isPending s n && isUnmasked s n

/-- The requests in the order of their priority, the first the highest (60_exceptions.md R235; log entry 22). -/
def byPriority : List Request := [.nmi, .int1, .int2, .int3, .int4]

/-- `Choose(Accept(state))` (60_exceptions.md R235). -/
def chosen (s : State) : Option Request := byPriority.find? (accepts s)

/-- What a step is (60_exceptions.md R237). -/
inductive StepSort where
  | reset
  | interrupt (n : Request)
  | execute
  | idle
deriving DecidableEq, Repr

/-- Which of them the next step is (60_exceptions.md R237). -/
def stepSort (s : State) : StepSort :=
  if (presented s).reset then .reset
  else
    match chosen s with
    | some n => .interrupt n
    | none => if s.run = .running then .execute else .idle

/-- The state made ready to fetch at the next step: running, and with a quiet boundary put before those to come if the
next one would bring a reset or an interrupt. -/
def readyToFetch (s : State) : State :=
  if stepSort (s.setRun .running) = .execute then s.setRun .running
  else (s.setRun .running).setInputs (quiet :: s.inputs)

end Sys2Proof.Machine
end

