-- ==== Sys2Proof/WellFormed.lean ====
section
/-! DEFINITION. Which instructions stand for bytes of their own: neither the 12 illegal opcodes nor the written forms. -/

namespace Sys2Proof

/-- The three sorts of rows of the opcode table. -/
inductive RowSort where
  /-- one of the 42 instruction rows -/
  | instruction
  /-- one of the 12 illegal opcodes (30_encoding.md R95) -/
  | illegal
  /-- a written form: another instruction with a fixed operand (30_encoding.md R99) -/
  | written
deriving DecidableEq, Repr

/-- The sort of an instruction's row. -/
def Instr.rowSort : Instr → RowSort
  | .jrnz _ => .instruction
  | .jrnc _ => .instruction
  | .jrz _ => .instruction
  | .jrc _ => .instruction
  | .call _ => .instruction
  | .jp _ => .instruction
  | .jrr _ _ _ => .instruction
  | .jrs _ _ _ => .instruction
  | .res _ _ => .instruction
  | .set _ _ => .instruction
  | .incReg _ => .instruction
  | .ldAReg _ => .instruction
  | .decReg _ => .instruction
  | .ldRegA _ => .instruction
  | .ldiDir _ _ => .instruction
  | .comA => .instruction
  | .reti => .instruction
  | .stop => .instruction
  | .rlcA => .instruction
  | .ret => .instruction
  | .wait => .instruction
  | .ldAInd _ => .instruction
  | .ldiA _ => .instruction
  | .ldADir _ => .instruction
  | .cpAInd _ => .instruction
  | .cpiA _ => .instruction
  | .cpADir _ => .instruction
  | .addAInd _ => .instruction
  | .addiA _ => .instruction
  | .addADir _ => .instruction
  | .incInd _ => .instruction
  | .incDir _ => .instruction
  | .ldIndA _ => .instruction
  | .ldDirA _ => .instruction
  | .andAInd _ => .instruction
  | .andiA _ => .instruction
  | .andADir _ => .instruction
  | .subAInd _ => .instruction
  | .subiA _ => .instruction
  | .subADir _ => .instruction
  | .decInd _ => .instruction
  | .decDir _ => .instruction
  | .illegal05 => .illegal
  | .illegal25 => .illegal
  | .illegal45 => .illegal
  | .illegal65 => .illegal
  | .illegal85 => .illegal
  | .illegalA5 => .illegal
  | .illegalC5 => .illegal
  | .illegalE5 => .illegal
  | .illegal77 => .illegal
  | .illegal97 => .illegal
  | .illegalF7 => .illegal
  | .illegal8D => .illegal
  | .nop => .written
  | .clrA => .written
  | .clrDir _ => .written
  | .slaA => .written
  | .incA => .written
  | .decA => .written
  | .ldAA => .written
  | .addAA => .written
  | .addAX => .written
  | .addAY => .written
  | .addAV => .written
  | .addAW => .written
  | .andAA => .written
  | .andAX => .written
  | .andAY => .written
  | .andAV => .written
  | .andAW => .written
  | .cpAA => .written
  | .cpAX => .written
  | .cpAY => .written
  | .cpAV => .written
  | .cpAW => .written
  | .subAA => .written
  | .subAX => .written
  | .subAY => .written
  | .subAV => .written
  | .subAW => .written
  | .resA _ => .written
  | .setA _ => .written
  | .ldiX _ => .written
  | .clrX => .written
  | .ldiY _ => .written
  | .clrY => .written
  | .ldiV _ => .written
  | .clrV => .written
  | .ldiW _ => .written
  | .clrW => .written

/-- The opcode is none of the twelve illegal ones (30_encoding.md R95). -/
def Instr.isLegal (i : Instr) : Bool := i.rowSort != .illegal

/-- The instruction has an opcode of its own (30_encoding.md R99). -/
def Instr.hasOpcode (i : Instr) : Bool := i.rowSort != .written

/-- A well-formed machine instruction: a legal opcode (30_encoding.md R95), and no written form of another instruction
(R99). Every value of every operand field is legal (R96), and the field types hold exactly those values. -/
def WellFormed (i : Instr) : Bool := i.isLegal && i.hasOpcode

end Sys2Proof
end

