-- ==== Sys2Proof/Decode.lean ====
section
/-! DEFINITION. The decoder, total on any bytes, and the encoder, both from 30_encoding.md. The first byte alone decides
the instruction, its form and its length (R80, R81); the decoder gives the 54 primary rows of the opcode table, and a
written form of R99 is decoded as the instruction it is written for (90_conflicts.md C7). -/

namespace Sys2Proof

/-! ### Bit fields -/

/-- A 3-bit value with its bit order reversed: `rev3(v) = v[0]*4 + v[1]*2 + v[2]` (00_scope.md R7). -/
def rev3 (v : BitNo) : BitNo := v.extractLsb' 0 1 ++ v.extractLsb' 1 1 ++ v.extractLsb' 2 1

/-- The bit operated on: op[7:5] holds its number with the bit order reversed (30_encoding.md R84). -/
def bitNumber (op : Byte) : BitNo := rev3 (op.extractLsb' 5 3)

/-- The displacement field of the one-byte branches, op[7:3] (30_encoding.md R82). -/
def disp5 (op : Byte) : Disp5 := op.extractLsb' 3 5

/-- The 12-bit extended address `b1 * 16 + op[7:4]` (30_encoding.md R90; 90_conflicts.md C2). -/
def extendedAddress (op b1 : Byte) : PAddr := b1 ++ op.extractLsb' 4 4

/-- The short-direct register that op[7:6] selects (30_encoding.md R85). -/
def shortRegOf : BitVec 2 → ShortReg
  | 0b00#2 => .x
  | 0b01#2 => .y
  | 0b10#2 => .v
  | _ => .w

/-- The code of a short-direct register in op[7:6] (30_encoding.md R85). -/
def ShortReg.code : ShortReg → BitVec 2
  | .x => 0b00#2
  | .y => 0b01#2
  | .v => 0b10#2
  | .w => 0b11#2

/-- The pointer register that op[3] selects (30_encoding.md R86; 90_conflicts.md C3). -/
def pointerOf (op : Byte) : Pointer := if op.getLsbD 3 then .y else .x

/-- The code of a pointer register in op[3] (30_encoding.md R86). -/
def Pointer.code : Pointer → BitVec 1
  | .x => 0b0#1
  | .y => 0b1#1

/-! ### Length -/

/-- The length in bytes as a function of the first byte (30_encoding.md R81). The length of an illegal opcode is not
defined (R95): no byte after it is fetched, since executing it stops the machine. Log entry 30. -/
def instrLength (op : Byte) : Nat :=
  match op.extractLsb' 0 4 with
  | 0x1#4 | 0x9#4 => 2
  | 0x3#4 => 3
  | 0xB#4 => 2
  | 0xD#4 => if op = 0x0D#8 then 3 else 1
  | 0x7#4 =>
    match op.extractLsb' 4 4 with
    | 0x1#4 | 0x3#4 | 0x5#4 | 0xB#4 | 0xD#4 => 2
    | _ => 1
  | 0xF#4 => if op.getLsbD 4 then 2 else 1
  | _ => 1

/-! ### Decoder -/

/-- Low nibble 5: short direct, or illegal where op[4] is 0 (30_encoding.md R85, R95). -/
def decodeColumn5 (op : Byte) : Instr :=
  match op.extractLsb' 4 4 with
  | 0x0#4 => .illegal05
  | 0x2#4 => .illegal25
  | 0x4#4 => .illegal45
  | 0x6#4 => .illegal65
  | 0x8#4 => .illegal85
  | 0xA#4 => .illegalA5
  | 0xC#4 => .illegalC5
  | 0xE#4 => .illegalE5
  | _ => if op.getLsbD 5 then .ldAReg (shortRegOf (op.extractLsb' 6 2)) else .incReg (shortRegOf (op.extractLsb' 6 2))

/-- Low nibble D: inherent and `LDI rr,nn` where op[4] is 0, short direct where it is 1 (30_encoding.md R85, R87). -/
def decodeColumnD (op b1 b2 : Byte) : Instr :=
  match op.extractLsb' 4 4 with
  | 0x0#4 => .ldiDir b1 b2
  | 0x2#4 => .comA
  | 0x4#4 => .reti
  | 0x6#4 => .stop
  | 0x8#4 => .illegal8D
  | 0xA#4 => .rlcA
  | 0xC#4 => .ret
  | 0xE#4 => .wait
  | _ => if op.getLsbD 5 then .ldRegA (shortRegOf (op.extractLsb' 6 2)) else .decReg (shortRegOf (op.extractLsb' 6 2))

/-- The indirect forms, op[4] = 0, selected by op[7:5] (30_encoding.md R86). -/
def decodeIndirect (op : Byte) : Instr :=
  match op.extractLsb' 5 3 with
  | 0b000#3 => .ldAInd (pointerOf op)
  | 0b001#3 => .cpAInd (pointerOf op)
  | 0b010#3 => .addAInd (pointerOf op)
  | 0b011#3 => .incInd (pointerOf op)
  | 0b100#3 => .ldIndA (pointerOf op)
  | 0b101#3 => .andAInd (pointerOf op)
  | 0b110#3 => .subAInd (pointerOf op)
  | _ => .decInd (pointerOf op)

/-- The immediate forms, low nibble 7 and op[4] = 1, selected by op[7:5]; three are illegal (30_encoding.md R86). -/
def decodeImmediate (op b1 : Byte) : Instr :=
  match op.extractLsb' 5 3 with
  | 0b000#3 => .ldiA b1
  | 0b001#3 => .cpiA b1
  | 0b010#3 => .addiA b1
  | 0b011#3 => .illegal77
  | 0b100#3 => .illegal97
  | 0b101#3 => .andiA b1
  | 0b110#3 => .subiA b1
  | _ => .illegalF7

/-- The direct forms, low nibble F and op[4] = 1, selected by op[7:5] (30_encoding.md R86). -/
def decodeDirect (op b1 : Byte) : Instr :=
  match op.extractLsb' 5 3 with
  | 0b000#3 => .ldADir b1
  | 0b001#3 => .cpADir b1
  | 0b010#3 => .addADir b1
  | 0b011#3 => .incDir b1
  | 0b100#3 => .ldDirA b1
  | 0b101#3 => .andADir b1
  | 0b110#3 => .subADir b1
  | _ => .decDir b1

/-- The opcode map (30_encoding.md R94) by columns, the low nibble of the first byte; `b1` and `b2` are the bytes that
follow, which only the longer forms look at. -/
def decodeInstr (op b1 b2 : Byte) : Instr :=
  match op.extractLsb' 0 4 with
  | 0x0#4 | 0x8#4 => .jrnz (disp5 op)
  | 0x2#4 | 0xA#4 => .jrnc (disp5 op)
  | 0x4#4 | 0xC#4 => .jrz (disp5 op)
  | 0x6#4 | 0xE#4 => .jrc (disp5 op)
  | 0x1#4 => .call (extendedAddress op b1)
  | 0x9#4 => .jp (extendedAddress op b1)
  | 0x3#4 => if op.getLsbD 4 then .jrs (bitNumber op) b1 b2 else .jrr (bitNumber op) b1 b2
  | 0xB#4 => if op.getLsbD 4 then .set (bitNumber op) b1 else .res (bitNumber op) b1
  | 0x5#4 => decodeColumn5 op
  | 0xD#4 => decodeColumnD op b1 b2
  | 0x7#4 => if op.getLsbD 4 then decodeImmediate op b1 else decodeIndirect op
  | _ => if op.getLsbD 4 then decodeDirect op b1 else decodeIndirect op

/-- Why the decoder refuses a list of bytes. Every first byte decodes (30_encoding.md R94): only bytes can be missing. -/
inductive DecodeError where
  /-- there is no first byte -/
  | noBytes
  /-- fewer bytes than the first byte asks for (30_encoding.md R81) -/
  | truncated (op : Byte)
deriving DecidableEq, Repr

/-- The decoder: the instruction at the head of a list of bytes, and the bytes after it. -/
def decode : List Byte → Except DecodeError (Instr × List Byte)
  | [] => .error .noBytes
  | op :: rest =>
    match instrLength op, rest with
    | 1, rest => .ok (decodeInstr op 0#8 0#8, rest)
    | 2, b1 :: rest => .ok (decodeInstr op b1 0#8, rest)
    | 3, b1 :: b2 :: rest => .ok (decodeInstr op b1 b2, rest)
    | _, _ => .error (.truncated op)

/-- Byte number `k` of a table word: bit 0 is the least significant bit of the first byte. -/
def tableByte (w k : Nat) : Byte := BitVec.ofNat 8 (w / 256 ^ k)

/-- The three bytes, first byte first, of an instruction whose `nbits` table bits are `w` and whose further bits are 0.
The bytes lie at increasing addresses, opcode first (20_memory.md R59). -/
def tableBytes (nbits w : Nat) : List Byte :=
  [tableByte (w % 2 ^ nbits) 0, tableByte (w % 2 ^ nbits) 1, tableByte (w % 2 ^ nbits) 2]

/-- The instruction the decoder reads from an instruction whose bits are `w`. -/
def decodeTableWord (nbits w : Nat) : Option Instr :=
  match decode (tableBytes nbits w) with
  | .ok (i, _) => some i
  | .error _ => none

/-! ### Written forms -/

/-- The instruction a written form is written for (30_encoding.md R99); every other instruction is its own expansion. -/
def Instr.expand : Instr → Instr
  | .jrnz e => .jrnz e
  | .jrnc e => .jrnc e
  | .jrz e => .jrz e
  | .jrc e => .jrc e
  | .call abc => .call abc
  | .jp abc => .jp abc
  | .jrr b rr ee => .jrr b rr ee
  | .jrs b rr ee => .jrs b rr ee
  | .res b rr => .res b rr
  | .set b rr => .set b rr
  | .incReg r => .incReg r
  | .ldAReg r => .ldAReg r
  | .decReg r => .decReg r
  | .ldRegA r => .ldRegA r
  | .ldiDir rr nn => .ldiDir rr nn
  | .comA => .comA
  | .reti => .reti
  | .stop => .stop
  | .rlcA => .rlcA
  | .ret => .ret
  | .wait => .wait
  | .ldAInd ptr => .ldAInd ptr
  | .ldiA nn => .ldiA nn
  | .ldADir rr => .ldADir rr
  | .cpAInd ptr => .cpAInd ptr
  | .cpiA nn => .cpiA nn
  | .cpADir rr => .cpADir rr
  | .addAInd ptr => .addAInd ptr
  | .addiA nn => .addiA nn
  | .addADir rr => .addADir rr
  | .incInd ptr => .incInd ptr
  | .incDir rr => .incDir rr
  | .ldIndA ptr => .ldIndA ptr
  | .ldDirA rr => .ldDirA rr
  | .andAInd ptr => .andAInd ptr
  | .andiA nn => .andiA nn
  | .andADir rr => .andADir rr
  | .subAInd ptr => .subAInd ptr
  | .subiA nn => .subiA nn
  | .subADir rr => .subADir rr
  | .decInd ptr => .decInd ptr
  | .decDir rr => .decDir rr
  | .illegal05 => .illegal05
  | .illegal25 => .illegal25
  | .illegal45 => .illegal45
  | .illegal65 => .illegal65
  | .illegal85 => .illegal85
  | .illegalA5 => .illegalA5
  | .illegalC5 => .illegalC5
  | .illegalE5 => .illegalE5
  | .illegal77 => .illegal77
  | .illegal97 => .illegal97
  | .illegalF7 => .illegalF7
  | .illegal8D => .illegal8D
  | .nop => .jrz 0x00#5
  | .clrA => .subADir 0xFF#8
  | .clrDir rr => .ldiDir rr 0x00#8
  | .slaA => .addADir 0xFF#8
  | .incA => .incDir 0xFF#8
  | .decA => .decDir 0xFF#8
  | .ldAA => .ldADir 0xFF#8
  | .addAA => .addADir 0xFF#8
  | .addAX => .addADir 0x80#8
  | .addAY => .addADir 0x81#8
  | .addAV => .addADir 0x82#8
  | .addAW => .addADir 0x83#8
  | .andAA => .andADir 0xFF#8
  | .andAX => .andADir 0x80#8
  | .andAY => .andADir 0x81#8
  | .andAV => .andADir 0x82#8
  | .andAW => .andADir 0x83#8
  | .cpAA => .cpADir 0xFF#8
  | .cpAX => .cpADir 0x80#8
  | .cpAY => .cpADir 0x81#8
  | .cpAV => .cpADir 0x82#8
  | .cpAW => .cpADir 0x83#8
  | .subAA => .subADir 0xFF#8
  | .subAX => .subADir 0x80#8
  | .subAY => .subADir 0x81#8
  | .subAV => .subADir 0x82#8
  | .subAW => .subADir 0x83#8
  | .resA b => .res b 0xFF#8
  | .setA b => .set b 0xFF#8
  | .ldiX nn => .ldiDir 0x80#8 nn
  | .clrX => .ldiDir 0x80#8 0x00#8
  | .ldiY nn => .ldiDir 0x81#8 nn
  | .clrY => .ldiDir 0x81#8 0x00#8
  | .ldiV nn => .ldiDir 0x82#8 nn
  | .clrV => .ldiDir 0x82#8 0x00#8
  | .ldiW nn => .ldiDir 0x83#8 nn
  | .clrW => .ldiDir 0x83#8 0x00#8

/-! ### Encoder -/

/-- The bytes of an instruction, first byte first (30_encoding.md R82 to R87, R90, R91; the written forms from the bytes
column of R99). -/
def encode : Instr → List Byte
  | .jrnz e => [e ++ 0b000#3]
  | .jrnc e => [e ++ 0b010#3]
  | .jrz e => [e ++ 0b100#3]
  | .jrc e => [e ++ 0b110#3]
  | .call abc => [abc.extractLsb' 0 4 ++ 0b0001#4, abc.extractLsb' 4 8]
  | .jp abc => [abc.extractLsb' 0 4 ++ 0b1001#4, abc.extractLsb' 4 8]
  | .jrr b rr ee => [rev3 b ++ 0b00011#5, rr, ee]
  | .jrs b rr ee => [rev3 b ++ 0b10011#5, rr, ee]
  | .res b rr => [rev3 b ++ 0b01011#5, rr]
  | .set b rr => [rev3 b ++ 0b11011#5, rr]
  | .incReg r => [r.code ++ 0b010101#6]
  | .ldAReg r => [r.code ++ 0b110101#6]
  | .decReg r => [r.code ++ 0b011101#6]
  | .ldRegA r => [r.code ++ 0b111101#6]
  | .ldiDir rr nn => [0x0D#8, rr, nn]
  | .comA => [0x2D#8]
  | .reti => [0x4D#8]
  | .stop => [0x6D#8]
  | .rlcA => [0xAD#8]
  | .ret => [0xCD#8]
  | .wait => [0xED#8]
  | .ldAInd ptr => [0b0000#4 ++ ptr.code ++ 0b111#3]
  | .ldiA nn => [0x17#8, nn]
  | .ldADir rr => [0x1F#8, rr]
  | .cpAInd ptr => [0b0010#4 ++ ptr.code ++ 0b111#3]
  | .cpiA nn => [0x37#8, nn]
  | .cpADir rr => [0x3F#8, rr]
  | .addAInd ptr => [0b0100#4 ++ ptr.code ++ 0b111#3]
  | .addiA nn => [0x57#8, nn]
  | .addADir rr => [0x5F#8, rr]
  | .incInd ptr => [0b0110#4 ++ ptr.code ++ 0b111#3]
  | .incDir rr => [0x7F#8, rr]
  | .ldIndA ptr => [0b1000#4 ++ ptr.code ++ 0b111#3]
  | .ldDirA rr => [0x9F#8, rr]
  | .andAInd ptr => [0b1010#4 ++ ptr.code ++ 0b111#3]
  | .andiA nn => [0xB7#8, nn]
  | .andADir rr => [0xBF#8, rr]
  | .subAInd ptr => [0b1100#4 ++ ptr.code ++ 0b111#3]
  | .subiA nn => [0xD7#8, nn]
  | .subADir rr => [0xDF#8, rr]
  | .decInd ptr => [0b1110#4 ++ ptr.code ++ 0b111#3]
  | .decDir rr => [0xFF#8, rr]
  | .illegal05 => [0x05#8]
  | .illegal25 => [0x25#8]
  | .illegal45 => [0x45#8]
  | .illegal65 => [0x65#8]
  | .illegal85 => [0x85#8]
  | .illegalA5 => [0xA5#8]
  | .illegalC5 => [0xC5#8]
  | .illegalE5 => [0xE5#8]
  | .illegal77 => [0x77#8]
  | .illegal97 => [0x97#8]
  | .illegalF7 => [0xF7#8]
  | .illegal8D => [0x8D#8]
  | .nop => [0x04#8]
  | .clrA => [0xDF#8, 0xFF#8]
  | .clrDir rr => [0x0D#8, rr, 0x00#8]
  | .slaA => [0x5F#8, 0xFF#8]
  | .incA => [0x7F#8, 0xFF#8]
  | .decA => [0xFF#8, 0xFF#8]
  | .ldAA => [0x1F#8, 0xFF#8]
  | .addAA => [0x5F#8, 0xFF#8]
  | .addAX => [0x5F#8, 0x80#8]
  | .addAY => [0x5F#8, 0x81#8]
  | .addAV => [0x5F#8, 0x82#8]
  | .addAW => [0x5F#8, 0x83#8]
  | .andAA => [0xBF#8, 0xFF#8]
  | .andAX => [0xBF#8, 0x80#8]
  | .andAY => [0xBF#8, 0x81#8]
  | .andAV => [0xBF#8, 0x82#8]
  | .andAW => [0xBF#8, 0x83#8]
  | .cpAA => [0x3F#8, 0xFF#8]
  | .cpAX => [0x3F#8, 0x80#8]
  | .cpAY => [0x3F#8, 0x81#8]
  | .cpAV => [0x3F#8, 0x82#8]
  | .cpAW => [0x3F#8, 0x83#8]
  | .subAA => [0xDF#8, 0xFF#8]
  | .subAX => [0xDF#8, 0x80#8]
  | .subAY => [0xDF#8, 0x81#8]
  | .subAV => [0xDF#8, 0x82#8]
  | .subAW => [0xDF#8, 0x83#8]
  | .resA b => [rev3 b ++ 0b01011#5, 0xFF#8]
  | .setA b => [rev3 b ++ 0b11011#5, 0xFF#8]
  | .ldiX nn => [0x0D#8, 0x80#8, nn]
  | .clrX => [0x0D#8, 0x80#8, 0x00#8]
  | .ldiY nn => [0x0D#8, 0x81#8, nn]
  | .clrY => [0x0D#8, 0x81#8, 0x00#8]
  | .ldiV nn => [0x0D#8, 0x82#8, nn]
  | .clrV => [0x0D#8, 0x82#8, 0x00#8]
  | .ldiW nn => [0x0D#8, 0x83#8, nn]
  | .clrW => [0x0D#8, 0x83#8, 0x00#8]

end Sys2Proof
end

