-- ==== Sys2Proof/Machine/Flags.lean ====
section
/-! DEFINITION. The flag pair that is active in a mode (10_state.md R32), and every flag computation the spec gives
(10_state.md R33; 41_arithmetic_logic.md R153, R154). -/

namespace Sys2Proof.Machine

/-- The pair that the mode selects (10_state.md R32). -/
def Flags.active (f : Flags) : Mode → FlagPair
  | .normal => f.normal
  | .int => f.int
  | .nmiFromNormal => f.nmi
  | .nmiFromInt => f.nmi

/-- The flags after a write of the pair that the mode selects; the other two pairs stay (10_state.md R32). -/
def Flags.setActive (f : Flags) (m : Mode) (p : FlagPair) : Flags :=
  match m with
  | .normal => { f with normal := p }
  | .int => { f with int := p }
  | .nmiFromNormal => { f with nmi := p }
  | .nmiFromInt => { f with nmi := p }

/-- `Z`, the Zero flag of the active pair (00_scope.md R7). -/
def State.zFlag (s : State) : Bool := (s.flags.active s.mode).z

/-- `C`, the Carry flag of the active pair (00_scope.md R7). -/
def State.cFlag (s : State) : Bool := (s.flags.active s.mode).c

/-- `Z <- z; C <- c` in the active pair. -/
def State.setZC (s : State) (z c : Bool) : State := s.setFlags (s.flags.setActive s.mode ⟨z, c⟩)

/-- `Z <- z` in the active pair; C stays. -/
def State.setZ (s : State) (z : Bool) : State := s.setZC z s.cFlag

/-- `C <- c` in the active pair; Z stays. -/
def State.setC (s : State) (c : Bool) : State := s.setZC s.zFlag c

/-- Z of a result: 1 if the byte is 0 (10_state.md R33). -/
def isZero (v : Byte) : Bool := v == 0#8

/-- The result of an 8-bit operation with its carry and zero bits. -/
structure AluResult where
  value : Byte
  c : Bool
  z : Bool
deriving DecidableEq, Repr

/-- `Add8(a, s)` (41_arithmetic_logic.md R153): no carry goes in; C is the carry out of bit 7. -/
def add8 (a s : Byte) : AluResult := ⟨a + s, decide (256 ≤ a.toNat + s.toNat), isZero (a + s)⟩

/-- `Sub8(a, s)` (41_arithmetic_logic.md R154): C is the borrow, 0 for equal operands (log entry 26). -/
def sub8 (a s : Byte) : AluResult := ⟨a - s, decide (a.toNat < s.toNat), a == s⟩

/-- Bitwise AND (41_arithmetic_logic.md R133); C is not written, and stands here unchanged. -/
def and8 (c : Bool) (a s : Byte) : AluResult := ⟨a &&& s, c, isZero (a &&& s)⟩

/-- One's complement (41_arithmetic_logic.md R138): C is the old bit 7. -/
def com8 (a : Byte) : AluResult := ⟨a ^^^ 0xFF#8, a.getLsbD 7, isZero (a ^^^ 0xFF#8)⟩

/-- Rotate left through carry (41_arithmetic_logic.md R148): the old C enters bit 0, C is the old bit 7. -/
def rlc8 (c : Bool) (a : Byte) : AluResult :=
  ⟨a.extractLsb' 0 7 ++ BitVec.ofBool c, a.getLsbD 7, isZero (a.extractLsb' 0 7 ++ BitVec.ofBool c)⟩

end Sys2Proof.Machine
end

