-- ==== Sys2Proof/Machine/Operands.lean ====
section
/-! DEFINITION. The operand forms (30_encoding.md R85, R86, R91, R92) and the branch targets (R88, R89). -/

namespace Sys2Proof.Machine

/-- A data-space operand by its addressing mode (30_encoding.md R92). -/
inductive Location where
  /-- short direct -/
  | short (r : ShortReg)
  /-- indirect through X or Y -/
  | indirect (p : Pointer)
  /-- direct, bit direct, bit test -/
  | direct (rr : Byte)
deriving DecidableEq, Repr

/-- The core register a short-direct operand names (30_encoding.md R85). -/
def shortReg : ShortReg → Reg
  | .x => .x
  | .y => .y
  | .v => .v
  | .w => .w

/-- The core register an indirect operand points with (30_encoding.md R86, R92). -/
def pointerReg : Pointer → Reg
  | .x => .x
  | .y => .y

/-- `EA`, the effective data address (30_encoding.md R92): a pointer is used as it is, and is not changed. -/
def effectiveAddress (s : State) : Location → Byte
  | .short r => regAddr (shortReg r)
  | .indirect p => s.regs.get (pointerReg p)
  | .direct rr => rr

/-- The length in bytes of an instruction with one data operand: one byte for the short-direct and indirect forms, two
for the direct form (30_encoding.md R81). -/
def formLength : Location → PAddr
  | .short _ => 1#12
  | .indirect _ => 1#12
  | .direct _ => 2#12

/-- The operand read: its value. -/
def operandValue (s : State) (l : Location) : Byte := dataValue s (effectiveAddress s l)

/-- The operand read: the state after it. -/
def afterOperand (s : State) (l : Location) : State := afterRead s (effectiveAddress s l)

/-- The target of a one-byte branch, `pc + 1 + sext_5(e)` (30_encoding.md R88; 90_conflicts.md C1). -/
def shortTarget (s : State) (e : Disp5) : PAddr := s.pc + 1#12 + e.signExtend 12

/-- The target of JRR and JRS, `pc + BT_BASE + sext_8(ee)` (30_encoding.md R89; 90_conflicts.md C4). Log entry 29. -/
def bitTestTarget (s : State) (ee : Byte) : PAddr := s.pc + btBaseOffset s.device.btBase + ee.signExtend 12

/-- Bit `b` of a byte. -/
def bitOf (v : Byte) (b : BitNo) : Bool := v.getLsbD b.toNat

/-- The byte with bit `b` alone set (43_bit_manipulation.md R190, R191). -/
def oneBit (b : BitNo) : Byte := 1#8 <<< b.toNat

end Sys2Proof.Machine
end

