-- ==== Sys2Proof/Machine/Arithmetic.lean ====
section
/-! DEFINITION. The arithmetic and logic instructions (41_arithmetic_logic.md). -/

namespace Sys2Proof.Machine

/-- A result goes to A, its zero and carry bits to the active flag pair, and the pc moves on by `n`. -/
def resultToA (s : State) (r : AluResult) (n : PAddr) : Result :=
  .next (((s.setReg .a r.value).setZC r.z r.c).advance n)

/-- A result is discarded but for its zero and carry bits (41_arithmetic_logic.md R139). -/
def resultToFlags (s : State) (r : AluResult) (n : PAddr) : Result := .next ((s.setZC r.z r.c).advance n)

/-- The data operand of a form `op A,src` is read, then A (20_memory.md R61; log entry 34); the result goes to A. -/
def aluA (f : State → Byte → Byte → AluResult) (l : Location) (s : State) : Result :=
  resultToA (afterOperand s l) (f s s.regs.a (operandValue s l)) (formLength l)

/-- Read a data operand, change it, write it back: Z from the new byte, C unchanged (41_arithmetic_logic.md R142 to
R147). -/
def modifyData (f : Byte → Byte) (l : Location) (s : State) : Result :=
  .next (((writeData (afterOperand s l) (effectiveAddress s l) (f (operandValue s l))).setZ
    (isZero (f (operandValue s l)))).advance (formLength l))

/-- `ADD A,(X)` and `ADD A,(Y)` (41_arithmetic_logic.md R130). -/
def execAddAInd (p : Pointer) (s : State) : Result := aluA (fun _ => add8) (.indirect p) s

/-- `ADD A,rr` (41_arithmetic_logic.md R131). -/
def execAddADir (rr : Byte) (s : State) : Result := aluA (fun _ => add8) (.direct rr) s

/-- `ADDI A,nn` (41_arithmetic_logic.md R132). -/
def execAddiA (nn : Byte) (s : State) : Result := resultToA s (add8 s.regs.a nn) 2#12

/-- `AND A,(X)` and `AND A,(Y)` (41_arithmetic_logic.md R133; 90_conflicts.md C5). -/
def execAndAInd (p : Pointer) (s : State) : Result := aluA (fun t => and8 t.cFlag) (.indirect p) s

/-- `AND A,rr` (41_arithmetic_logic.md R134). -/
def execAndADir (rr : Byte) (s : State) : Result := aluA (fun t => and8 t.cFlag) (.direct rr) s

/-- `ANDI A,nn` (41_arithmetic_logic.md R135). -/
def execAndiA (nn : Byte) (s : State) : Result := resultToA s (and8 s.cFlag s.regs.a nn) 2#12

/-- `COM A` (41_arithmetic_logic.md R138). -/
def execComA (s : State) : Result := resultToA s (com8 s.regs.a) 1#12

/-- `CP A,(X)` and `CP A,(Y)` (41_arithmetic_logic.md R139). -/
def execCpAInd (p : Pointer) (s : State) : Result :=
  resultToFlags (afterOperand s (.indirect p)) (sub8 s.regs.a (operandValue s (.indirect p))) 1#12

/-- `CP A,rr` (41_arithmetic_logic.md R140). -/
def execCpADir (rr : Byte) (s : State) : Result :=
  resultToFlags (afterOperand s (.direct rr)) (sub8 s.regs.a (operandValue s (.direct rr))) 2#12

/-- `CPI A,nn` (41_arithmetic_logic.md R141). -/
def execCpiA (nn : Byte) (s : State) : Result := resultToFlags s (sub8 s.regs.a nn) 2#12

/-- `DEC r` (41_arithmetic_logic.md R142). -/
def execDecReg (r : ShortReg) (s : State) : Result := modifyData (fun v => v - 1#8) (.short r) s

/-- `DEC (X)` and `DEC (Y)` (41_arithmetic_logic.md R143). -/
def execDecInd (p : Pointer) (s : State) : Result := modifyData (fun v => v - 1#8) (.indirect p) s

/-- `DEC rr` (41_arithmetic_logic.md R144). -/
def execDecDir (rr : Byte) (s : State) : Result := modifyData (fun v => v - 1#8) (.direct rr) s

/-- `INC r` (41_arithmetic_logic.md R145). -/
def execIncReg (r : ShortReg) (s : State) : Result := modifyData (fun v => v + 1#8) (.short r) s

/-- `INC (X)` and `INC (Y)` (41_arithmetic_logic.md R146). -/
def execIncInd (p : Pointer) (s : State) : Result := modifyData (fun v => v + 1#8) (.indirect p) s

/-- `INC rr` (41_arithmetic_logic.md R147). -/
def execIncDir (rr : Byte) (s : State) : Result := modifyData (fun v => v + 1#8) (.direct rr) s

/-- `RLC A` (41_arithmetic_logic.md R148). -/
def execRlcA (s : State) : Result := resultToA s (rlc8 s.cFlag s.regs.a) 1#12

/-- `SUB A,(X)` and `SUB A,(Y)` (41_arithmetic_logic.md R150). -/
def execSubAInd (p : Pointer) (s : State) : Result := aluA (fun _ => sub8) (.indirect p) s

/-- `SUB A,rr` (41_arithmetic_logic.md R151). -/
def execSubADir (rr : Byte) (s : State) : Result := aluA (fun _ => sub8) (.direct rr) s

/-- `SUBI A,nn` (41_arithmetic_logic.md R152). -/
def execSubiA (nn : Byte) (s : State) : Result := resultToA s (sub8 s.regs.a nn) 2#12

end Sys2Proof.Machine
end

