-- ==== Sys2Proof/Machine/Bits.lean ====
section
/-! DEFINITION. The bit manipulation instructions (43_bit_manipulation.md). -/

namespace Sys2Proof.Machine

/-- Read the whole byte, change one bit, write the whole byte back; no flag is written (43_bit_manipulation.md R192;
log entry 33). -/
def changeByte (f : Byte → Byte) (rr : Byte) (s : State) : Result :=
  .next ((writeData (afterRead s rr) rr (f (dataValue s rr))).advance 2#12)

/-- `RES b,rr` (43_bit_manipulation.md R190). -/
def execRes (b : BitNo) (rr : Byte) (s : State) : Result := changeByte (fun v => v &&& (0xFF#8 ^^^ oneBit b)) rr s

/-- `SET b,rr` (43_bit_manipulation.md R191). -/
def execSet (b : BitNo) (rr : Byte) (s : State) : Result := changeByte (fun v => v ||| oneBit b) rr s

end Sys2Proof.Machine
end

