-- ==== Sys2Proof/Machine/Branch.lean ====
section
/-! DEFINITION. The conditional branches (42_conditional_branch.md). -/

namespace Sys2Proof.Machine

/-- The common rule of JRC, JRNC, JRZ, JRNZ (42_conditional_branch.md R170). -/
def branchIf (taken : Bool) (e : Disp5) (s : State) : Result :=
  .next (if taken then s.setPc (shortTarget s e) else s.advance 1#12)

/-- The common rule of JRR and JRS (42_conditional_branch.md R175): C receives the tested bit whether or not the branch
is taken; the branch is taken if the bit is `t`. -/
def branchOnBit (t : Bool) (b : BitNo) (rr ee : Byte) (s : State) : Result :=
  .next (((afterRead s rr).setC (bitOf (dataValue s rr) b)).setPc
    (if bitOf (dataValue s rr) b = t then bitTestTarget s ee else s.pc + 3#12))

/-- `JRNZ e` (42_conditional_branch.md R174). -/
def execJrnz (e : Disp5) (s : State) : Result := branchIf (!s.zFlag) e s

/-- `JRNC e` (42_conditional_branch.md R172). -/
def execJrnc (e : Disp5) (s : State) : Result := branchIf (!s.cFlag) e s

/-- `JRZ e` (42_conditional_branch.md R173). -/
def execJrz (e : Disp5) (s : State) : Result := branchIf s.zFlag e s

/-- `JRC e` (42_conditional_branch.md R171). -/
def execJrc (e : Disp5) (s : State) : Result := branchIf s.cFlag e s

/-- `JRR b,rr,ee` (42_conditional_branch.md R176). -/
def execJrr (b : BitNo) (rr ee : Byte) (s : State) : Result := branchOnBit false b rr ee s

/-- `JRS b,rr,ee` (42_conditional_branch.md R177). -/
def execJrs (b : BitNo) (rr ee : Byte) (s : State) : Result := branchOnBit true b rr ee s

end Sys2Proof.Machine
end

