-- ==== Sys2Proof/Machine/Control.lean ====
section
/-! DEFINITION. The control instructions (44_control.md); NOP, a written form, is in Written.lean. -/

namespace Sys2Proof.Machine

/-- `RET` (44_control.md R201). -/
def execRet (s : State) : Result := .next (popAndReturn s)

/-- `RETI` (44_control.md R202 to R204). -/
def execReti (s : State) : Result := .next (returnFromInterrupt s)

/-- `STOP`, which is WAIT if the watchdog function is selected (44_control.md R205). -/
def execStop (s : State) : Result :=
  .next ((s.advance 1#12).setRun (if s.device.watchdogSelected then .waiting else .stopped))

/-- `WAIT` (44_control.md R206). -/
def execWait (s : State) : Result := .next ((s.advance 1#12).setRun .waiting)

end Sys2Proof.Machine
end

