-- ==== Sys2Proof/Machine/Illegal.lean ====
section
/-! DEFINITION. The twelve illegal opcodes: the source says nothing of what the core does with them, and the spec has a
model raise `ModelFault(IllegalOpcode(op))` (30_encoding.md R95; 92_eei_decisions.md D11). Log entry 30. -/

namespace Sys2Proof.Machine

/-- `raise ModelFault(IllegalOpcode(op))` (30_encoding.md R95). -/
def stopOnIllegal (op : Byte) (_ : State) : Result := .fault (.illegalOpcode op)

/-- The illegal opcode 05h (30_encoding.md R95). -/
def execIllegal05 (s : State) : Result := stopOnIllegal 0x05#8 s

/-- The illegal opcode 25h (30_encoding.md R95). -/
def execIllegal25 (s : State) : Result := stopOnIllegal 0x25#8 s

/-- The illegal opcode 45h (30_encoding.md R95). -/
def execIllegal45 (s : State) : Result := stopOnIllegal 0x45#8 s

/-- The illegal opcode 65h (30_encoding.md R95). -/
def execIllegal65 (s : State) : Result := stopOnIllegal 0x65#8 s

/-- The illegal opcode 85h (30_encoding.md R95). -/
def execIllegal85 (s : State) : Result := stopOnIllegal 0x85#8 s

/-- The illegal opcode A5h (30_encoding.md R95). -/
def execIllegalA5 (s : State) : Result := stopOnIllegal 0xA5#8 s

/-- The illegal opcode C5h (30_encoding.md R95). -/
def execIllegalC5 (s : State) : Result := stopOnIllegal 0xC5#8 s

/-- The illegal opcode E5h (30_encoding.md R95). -/
def execIllegalE5 (s : State) : Result := stopOnIllegal 0xE5#8 s

/-- The illegal opcode 77h (30_encoding.md R95). -/
def execIllegal77 (s : State) : Result := stopOnIllegal 0x77#8 s

/-- The illegal opcode 97h (30_encoding.md R95). -/
def execIllegal97 (s : State) : Result := stopOnIllegal 0x97#8 s

/-- The illegal opcode F7h (30_encoding.md R95). -/
def execIllegalF7 (s : State) : Result := stopOnIllegal 0xF7#8 s

/-- The illegal opcode 8Dh (30_encoding.md R95). -/
def execIllegal8D (s : State) : Result := stopOnIllegal 0x8D#8 s

end Sys2Proof.Machine
end

