-- ==== Sys2Proof/Machine/JumpCall.lean ====
section
/-! DEFINITION. The jump and call instructions (45_jump_call.md). -/

namespace Sys2Proof.Machine

/-- `CALL abc`: the address of the next instruction is pushed (45_jump_call.md R220; 90_conflicts.md C9; log entry 25). -/
def execCall (abc : PAddr) (s : State) : Result := pushAndGo s (s.pc + 2#12) abc

/-- `JP abc` (45_jump_call.md R221). -/
def execJp (abc : PAddr) (s : State) : Result := .next (s.setPc abc)

end Sys2Proof.Machine
end

