-- ==== Sys2Proof/Machine/LoadStore.lean ====
section
/-! DEFINITION. The load and store instructions (40_load_store.md). -/

namespace Sys2Proof.Machine

/-- Load A from a data operand: Z from the byte moved, C unchanged (40_load_store.md R110, R112, R114). -/
def loadA (l : Location) (s : State) : Result :=
  .next ((((afterOperand s l).setReg .a (operandValue s l)).setZ (isZero (operandValue s l))).advance (formLength l))

/-- Store A to a data operand: Z from the byte moved, C unchanged (40_load_store.md R111, R113, R115). -/
def storeA (l : Location) (s : State) : Result :=
  .next (((writeData s (effectiveAddress s l) s.regs.a).setZ (isZero s.regs.a)).advance (formLength l))

/-- `LD A,r` (40_load_store.md R110). -/
def execLdAReg (r : ShortReg) (s : State) : Result := loadA (.short r) s

/-- `LD r,A` (40_load_store.md R111). -/
def execLdRegA (r : ShortReg) (s : State) : Result := storeA (.short r) s

/-- `LD A,(X)` and `LD A,(Y)` (40_load_store.md R112). -/
def execLdAInd (p : Pointer) (s : State) : Result := loadA (.indirect p) s

/-- `LD (X),A` and `LD (Y),A` (40_load_store.md R113). -/
def execLdIndA (p : Pointer) (s : State) : Result := storeA (.indirect p) s

/-- `LD A,rr` (40_load_store.md R114). -/
def execLdADir (rr : Byte) (s : State) : Result := loadA (.direct rr) s

/-- `LD rr,A` (40_load_store.md R115). -/
def execLdDirA (rr : Byte) (s : State) : Result := storeA (.direct rr) s

/-- `LDI A,nn`: Z from the immediate, C unchanged (40_load_store.md R116). -/
def execLdiA (nn : Byte) (s : State) : Result := .next (((s.setReg .a nn).setZ (isZero nn)).advance 2#12)

/-- `LDI rr,nn`: no flag is written (40_load_store.md R117; 90_conflicts.md C11). -/
def execLdiDir (rr nn : Byte) (s : State) : Result := .next ((writeData s rr nn).advance 3#12)

end Sys2Proof.Machine
end

