-- ==== Sys2Proof/Machine/Written.lean ====
section
/-! DEFINITION. The written forms: each is another instruction with a fixed operand, and its effect and flags are those of
that instruction (30_encoding.md R99). Log entry 31. -/

namespace Sys2Proof.Machine

/-- `NOP` is `jrz 0x00#5` (44_control.md R200). -/
def execNop (s : State) : Result := execJrz 0x00#5 s

/-- `CLR A` is `subADir 0xFF#8` (41_arithmetic_logic.md R136). -/
def execClrA (s : State) : Result := execSubADir 0xFF#8 s

/-- `CLR rr` is `ldiDir rr 0x00#8` (41_arithmetic_logic.md R137). -/
def execClrDir (rr : Byte) (s : State) : Result := execLdiDir rr 0x00#8 s

/-- `SLA A` is `addADir 0xFF#8` (41_arithmetic_logic.md R149). -/
def execSlaA (s : State) : Result := execAddADir 0xFF#8 s

/-- `INC A` is `incDir 0xFF#8` (41_arithmetic_logic.md R147). -/
def execIncA (s : State) : Result := execIncDir 0xFF#8 s

/-- `DEC A` is `decDir 0xFF#8` (41_arithmetic_logic.md R144). -/
def execDecA (s : State) : Result := execDecDir 0xFF#8 s

/-- `LD A,A` is `ldADir 0xFF#8` (40_load_store.md R114). -/
def execLdAA (s : State) : Result := execLdADir 0xFF#8 s

/-- `ADD A,A` is `addADir 0xFF#8` (41_arithmetic_logic.md R131). -/
def execAddAA (s : State) : Result := execAddADir 0xFF#8 s

/-- `ADD A,X` is `addADir 0x80#8` (41_arithmetic_logic.md R131). -/
def execAddAX (s : State) : Result := execAddADir 0x80#8 s

/-- `ADD A,Y` is `addADir 0x81#8` (41_arithmetic_logic.md R131). -/
def execAddAY (s : State) : Result := execAddADir 0x81#8 s

/-- `ADD A,V` is `addADir 0x82#8` (41_arithmetic_logic.md R131). -/
def execAddAV (s : State) : Result := execAddADir 0x82#8 s

/-- `ADD A,W` is `addADir 0x83#8` (41_arithmetic_logic.md R131). -/
def execAddAW (s : State) : Result := execAddADir 0x83#8 s

/-- `AND A,A` is `andADir 0xFF#8` (41_arithmetic_logic.md R134). -/
def execAndAA (s : State) : Result := execAndADir 0xFF#8 s

/-- `AND A,X` is `andADir 0x80#8` (41_arithmetic_logic.md R134). -/
def execAndAX (s : State) : Result := execAndADir 0x80#8 s

/-- `AND A,Y` is `andADir 0x81#8` (41_arithmetic_logic.md R134). -/
def execAndAY (s : State) : Result := execAndADir 0x81#8 s

/-- `AND A,V` is `andADir 0x82#8` (41_arithmetic_logic.md R134). -/
def execAndAV (s : State) : Result := execAndADir 0x82#8 s

/-- `AND A,W` is `andADir 0x83#8` (41_arithmetic_logic.md R134). -/
def execAndAW (s : State) : Result := execAndADir 0x83#8 s

/-- `CP A,A` is `cpADir 0xFF#8` (41_arithmetic_logic.md R140). -/
def execCpAA (s : State) : Result := execCpADir 0xFF#8 s

/-- `CP A,X` is `cpADir 0x80#8` (41_arithmetic_logic.md R140). -/
def execCpAX (s : State) : Result := execCpADir 0x80#8 s

/-- `CP A,Y` is `cpADir 0x81#8` (41_arithmetic_logic.md R140). -/
def execCpAY (s : State) : Result := execCpADir 0x81#8 s

/-- `CP A,V` is `cpADir 0x82#8` (41_arithmetic_logic.md R140). -/
def execCpAV (s : State) : Result := execCpADir 0x82#8 s

/-- `CP A,W` is `cpADir 0x83#8` (41_arithmetic_logic.md R140). -/
def execCpAW (s : State) : Result := execCpADir 0x83#8 s

/-- `SUB A,A` is `subADir 0xFF#8` (41_arithmetic_logic.md R151). -/
def execSubAA (s : State) : Result := execSubADir 0xFF#8 s

/-- `SUB A,X` is `subADir 0x80#8` (41_arithmetic_logic.md R151). -/
def execSubAX (s : State) : Result := execSubADir 0x80#8 s

/-- `SUB A,Y` is `subADir 0x81#8` (41_arithmetic_logic.md R151). -/
def execSubAY (s : State) : Result := execSubADir 0x81#8 s

/-- `SUB A,V` is `subADir 0x82#8` (41_arithmetic_logic.md R151). -/
def execSubAV (s : State) : Result := execSubADir 0x82#8 s

/-- `SUB A,W` is `subADir 0x83#8` (41_arithmetic_logic.md R151). -/
def execSubAW (s : State) : Result := execSubADir 0x83#8 s

/-- `RES b,A` is `res b 0xFF#8` (43_bit_manipulation.md R190). -/
def execResA (b : BitNo) (s : State) : Result := execRes b 0xFF#8 s

/-- `SET b,A` is `set b 0xFF#8` (43_bit_manipulation.md R191). -/
def execSetA (b : BitNo) (s : State) : Result := execSet b 0xFF#8 s

/-- `LDI X,nn` is `ldiDir 0x80#8 nn` (40_load_store.md R117). -/
def execLdiX (nn : Byte) (s : State) : Result := execLdiDir 0x80#8 nn s

/-- `CLR X` is `ldiDir 0x80#8 0x00#8` (41_arithmetic_logic.md R137). -/
def execClrX (s : State) : Result := execLdiDir 0x80#8 0x00#8 s

/-- `LDI Y,nn` is `ldiDir 0x81#8 nn` (40_load_store.md R117). -/
def execLdiY (nn : Byte) (s : State) : Result := execLdiDir 0x81#8 nn s

/-- `CLR Y` is `ldiDir 0x81#8 0x00#8` (41_arithmetic_logic.md R137). -/
def execClrY (s : State) : Result := execLdiDir 0x81#8 0x00#8 s

/-- `LDI V,nn` is `ldiDir 0x82#8 nn` (40_load_store.md R117). -/
def execLdiV (nn : Byte) (s : State) : Result := execLdiDir 0x82#8 nn s

/-- `CLR V` is `ldiDir 0x82#8 0x00#8` (41_arithmetic_logic.md R137). -/
def execClrV (s : State) : Result := execLdiDir 0x82#8 0x00#8 s

/-- `LDI W,nn` is `ldiDir 0x83#8 nn` (40_load_store.md R117). -/
def execLdiW (nn : Byte) (s : State) : Result := execLdiDir 0x83#8 nn s

/-- `CLR W` is `ldiDir 0x83#8 0x00#8` (41_arithmetic_logic.md R137). -/
def execClrW (s : State) : Result := execLdiDir 0x83#8 0x00#8 s

end Sys2Proof.Machine
end

