-- ==== Sys2Proof/Machine/Dispatch.lean ====
section
/-! DEFINITION. One arm per constructor of Instr, each one call of the meaning of its instruction. -/

namespace Sys2Proof.Machine

def exec (i : Instr) (s : State) : Host.Outcome State Fault Refusal :=
  match i with
  | .jrnz e => Sys2Proof.Machine.execJrnz e s
  | .jrnc e => Sys2Proof.Machine.execJrnc e s
  | .jrz e => Sys2Proof.Machine.execJrz e s
  | .jrc e => Sys2Proof.Machine.execJrc e s
  | .call abc => Sys2Proof.Machine.execCall abc s
  | .jp abc => Sys2Proof.Machine.execJp abc s
  | .jrr b rr ee => Sys2Proof.Machine.execJrr b rr ee s
  | .jrs b rr ee => Sys2Proof.Machine.execJrs b rr ee s
  | .res b rr => Sys2Proof.Machine.execRes b rr s
  | .set b rr => Sys2Proof.Machine.execSet b rr s
  | .incReg r => Sys2Proof.Machine.execIncReg r s
  | .ldAReg r => Sys2Proof.Machine.execLdAReg r s
  | .decReg r => Sys2Proof.Machine.execDecReg r s
  | .ldRegA r => Sys2Proof.Machine.execLdRegA r s
  | .ldiDir rr nn => Sys2Proof.Machine.execLdiDir rr nn s
  | .comA => Sys2Proof.Machine.execComA s
  | .reti => Sys2Proof.Machine.execReti s
  | .stop => Sys2Proof.Machine.execStop s
  | .rlcA => Sys2Proof.Machine.execRlcA s
  | .ret => Sys2Proof.Machine.execRet s
  | .wait => Sys2Proof.Machine.execWait s
  | .ldAInd ptr => Sys2Proof.Machine.execLdAInd ptr s
  | .ldiA nn => Sys2Proof.Machine.execLdiA nn s
  | .ldADir rr => Sys2Proof.Machine.execLdADir rr s
  | .cpAInd ptr => Sys2Proof.Machine.execCpAInd ptr s
  | .cpiA nn => Sys2Proof.Machine.execCpiA nn s
  | .cpADir rr => Sys2Proof.Machine.execCpADir rr s
  | .addAInd ptr => Sys2Proof.Machine.execAddAInd ptr s
  | .addiA nn => Sys2Proof.Machine.execAddiA nn s
  | .addADir rr => Sys2Proof.Machine.execAddADir rr s
  | .incInd ptr => Sys2Proof.Machine.execIncInd ptr s
  | .incDir rr => Sys2Proof.Machine.execIncDir rr s
  | .ldIndA ptr => Sys2Proof.Machine.execLdIndA ptr s
  | .ldDirA rr => Sys2Proof.Machine.execLdDirA rr s
  | .andAInd ptr => Sys2Proof.Machine.execAndAInd ptr s
  | .andiA nn => Sys2Proof.Machine.execAndiA nn s
  | .andADir rr => Sys2Proof.Machine.execAndADir rr s
  | .subAInd ptr => Sys2Proof.Machine.execSubAInd ptr s
  | .subiA nn => Sys2Proof.Machine.execSubiA nn s
  | .subADir rr => Sys2Proof.Machine.execSubADir rr s
  | .decInd ptr => Sys2Proof.Machine.execDecInd ptr s
  | .decDir rr => Sys2Proof.Machine.execDecDir rr s
  | .illegal05 => Sys2Proof.Machine.execIllegal05 s
  | .illegal25 => Sys2Proof.Machine.execIllegal25 s
  | .illegal45 => Sys2Proof.Machine.execIllegal45 s
  | .illegal65 => Sys2Proof.Machine.execIllegal65 s
  | .illegal85 => Sys2Proof.Machine.execIllegal85 s
  | .illegalA5 => Sys2Proof.Machine.execIllegalA5 s
  | .illegalC5 => Sys2Proof.Machine.execIllegalC5 s
  | .illegalE5 => Sys2Proof.Machine.execIllegalE5 s
  | .illegal77 => Sys2Proof.Machine.execIllegal77 s
  | .illegal97 => Sys2Proof.Machine.execIllegal97 s
  | .illegalF7 => Sys2Proof.Machine.execIllegalF7 s
  | .illegal8D => Sys2Proof.Machine.execIllegal8D s
  | .nop => Sys2Proof.Machine.execNop s
  | .clrA => Sys2Proof.Machine.execClrA s
  | .clrDir rr => Sys2Proof.Machine.execClrDir rr s
  | .slaA => Sys2Proof.Machine.execSlaA s
  | .incA => Sys2Proof.Machine.execIncA s
  | .decA => Sys2Proof.Machine.execDecA s
  | .ldAA => Sys2Proof.Machine.execLdAA s
  | .addAA => Sys2Proof.Machine.execAddAA s
  | .addAX => Sys2Proof.Machine.execAddAX s
  | .addAY => Sys2Proof.Machine.execAddAY s
  | .addAV => Sys2Proof.Machine.execAddAV s
  | .addAW => Sys2Proof.Machine.execAddAW s
  | .andAA => Sys2Proof.Machine.execAndAA s
  | .andAX => Sys2Proof.Machine.execAndAX s
  | .andAY => Sys2Proof.Machine.execAndAY s
  | .andAV => Sys2Proof.Machine.execAndAV s
  | .andAW => Sys2Proof.Machine.execAndAW s
  | .cpAA => Sys2Proof.Machine.execCpAA s
  | .cpAX => Sys2Proof.Machine.execCpAX s
  | .cpAY => Sys2Proof.Machine.execCpAY s
  | .cpAV => Sys2Proof.Machine.execCpAV s
  | .cpAW => Sys2Proof.Machine.execCpAW s
  | .subAA => Sys2Proof.Machine.execSubAA s
  | .subAX => Sys2Proof.Machine.execSubAX s
  | .subAY => Sys2Proof.Machine.execSubAY s
  | .subAV => Sys2Proof.Machine.execSubAV s
  | .subAW => Sys2Proof.Machine.execSubAW s
  | .resA b => Sys2Proof.Machine.execResA b s
  | .setA b => Sys2Proof.Machine.execSetA b s
  | .ldiX nn => Sys2Proof.Machine.execLdiX nn s
  | .clrX => Sys2Proof.Machine.execClrX s
  | .ldiY nn => Sys2Proof.Machine.execLdiY nn s
  | .clrY => Sys2Proof.Machine.execClrY s
  | .ldiV nn => Sys2Proof.Machine.execLdiV nn s
  | .clrV => Sys2Proof.Machine.execClrV s
  | .ldiW nn => Sys2Proof.Machine.execLdiW nn s
  | .clrW => Sys2Proof.Machine.execClrW s

end Sys2Proof.Machine
end

