-- ==== Sys2Proof/Machine/Fetch.lean ====
section
/-! DEFINITION. Fetching an instruction's bytes (20_memory.md R69; 00_scope.md R8), and placing one where it is fetched. -/

namespace Sys2Proof.Machine

/-- The instruction bytes at `a`, `a + 1`, ..., `n` of them, addresses modulo 4096 (00_scope.md R7; 10_state.md R27); the
error is the first address that the program image does not implement. -/
def fetchBytes (s : State) (a : PAddr) : Nat → Except PAddr (List Byte)
  | 0 => .ok []
  | n + 1 =>
    match fetchByte s a with
    | none => .error a
    | some v =>
      match fetchBytes s (a + 1#12) n with
      | .ok vs => .ok (v :: vs)
      | .error e => .error e

/-- The instruction at the pc: the first byte decides how many are fetched (30_encoding.md R80, R81). -/
def fetchInstr (s : State) : Except PAddr Instr :=
  match fetchByte s s.pc with
  | none => .error s.pc
  | some op =>
    match fetchBytes s s.pc (instrLength op) with
    | .error e => .error e
    | .ok bytes =>
      match decode bytes with
      | .ok (i, _) => .ok i
      | .error _ => .error s.pc

/-- Program memory with `bytes` placed at `a`, `a + 1`, ... as `fetchByte` sees them. -/
def placeBytes (s : State) (a : PAddr) : List Byte → State
  | [] => s
  | v :: vs => placeBytes (s.setRom (s.rom.write (romCell s a) v)) (a + 1#12) vs

end Sys2Proof.Machine
end

