-- ==== Sys2Proof/Machine/Step.lean ====
section
/-! DEFINITION. One step of the machine (60_exceptions.md R237): a reset, an interrupt entry, a whole instruction, or an
idle step of a waiting or stopped core. -/

namespace Sys2Proof.Machine

/-- `Step(state)` (60_exceptions.md R237). -/
def step (s : State) : Host.Outcome State Fault Refusal :=
  match stepSort s with
  | .reset => .next (resetInput (pastBoundary s))
  | .interrupt n => takeInterrupt n (pastBoundary s)
  | .execute =>
    match fetchInstr (pastBoundary s) with
    | .ok i => exec i (pastBoundary s)
    | .error a => .fault (.fetchUnimplemented a)
  | .idle => .next (pastBoundary s)

/-- `s` with the instruction whose table bits are `w` stored where `step` fetches its next instruction. -/
def State.withFetchWord (s : State) (nbits w : Nat) : State :=
  placeBytes (readyToFetch s) s.pc (Sys2Proof.tableBytes nbits w)

end Sys2Proof.Machine
end

