-- ==== Sys2Proof/Safety.lean ====
section
/-! DEFINITION. The terms the statements use: the invariant of the machine, and what an instruction may write. -/

namespace Sys2Proof.Machine

/-- Cell `k` of data RAM is behind an address that the device's map calls RAM: a fixed one, or one of 00h-3Fh in the bank
that the cell belongs to (20_memory.md R50, R54). -/
def IsRamCell (d : Device) (k : Nat) : Prop :=
  if k < 256 then isPaged (BitVec.ofNat 8 k) = false ∧ placeOf d 0 (BitVec.ofNat 8 k) = .device .ram
  else isPaged (BitVec.ofNat 8 (k % 256)) = true ∧
    placeOf d (k / 256 - 1) (BitVec.ofNat 8 (k % 256)) = .device .ram

/-- The invariant: both memories in canonical form, bytes of RAM only where the device has RAM (so that no core register,
peripheral or ROM address is ever kept a second time as RAM), and a stack level of 0 to 6 (10_state.md R28). -/
structure Inv (s : State) : Prop where
  ramCanonical : Memory.wf s.ram
  romCanonical : Memory.wf s.rom
  ramOnlyInRam : ∀ c ∈ s.ram, IsRamCell s.device c.1
  levelInRange : s.stack.level ≤ 6

/-- There is room for a return address, or the device goes on without it (10_state.md R29). -/
def CanPush (s : State) : Prop := s.stack.level < 6 ∨ s.device.stackOverflow ≠ .fault

/-- From `s` to `t`, the two flag pairs that the mode of `s` does not select are unchanged (10_state.md R32). -/
def OtherPairsKept (s t : State) : Prop :=
  match s.mode with
  | .normal => t.flags.int = s.flags.int ∧ t.flags.nmi = s.flags.nmi
  | .int => t.flags.normal = s.flags.normal ∧ t.flags.nmi = s.flags.nmi
  | .nmiFromNormal => t.flags.normal = s.flags.normal ∧ t.flags.int = s.flags.int
  | .nmiFromInt => t.flags.normal = s.flags.normal ∧ t.flags.int = s.flags.int

/-- The data address of a short-direct register, `80h + op[7:6]` (30_encoding.md R92). -/
def shortAddress (r : ShortReg) : Byte := 0x80#8 + r.code.setWidth 8

/-- The content of a pointer register, `MemRead(80h + op[3], 1)` (30_encoding.md R92). -/
def pointerValue (s : State) (p : Pointer) : Byte := dataValue s (0x80#8 + p.code.setWidth 8)

/-- The data address that an instruction writes, by the writes column of 20_memory.md R61; a written form writes what the
instruction it is written for writes. -/
def writtenAddress (s : State) (i : Instr) : Option Byte :=
  match i.expand with
  | .ldAReg _ | .ldAInd _ | .ldADir _ | .ldiA _ => some 0xFF#8
  | .addAInd _ | .addADir _ | .addiA _ | .andAInd _ | .andADir _ | .andiA _ => some 0xFF#8
  | .subAInd _ | .subADir _ | .subiA _ | .comA | .rlcA => some 0xFF#8
  | .ldRegA r | .incReg r | .decReg r => some (effectiveAddress s (.short r))
  | .ldIndA p | .incInd p | .decInd p => some (effectiveAddress s (.indirect p))
  | .ldDirA rr | .incDir rr | .decDir rr => some (effectiveAddress s (.direct rr))
  | .ldiDir rr _ | .res _ rr | .set _ rr => some rr
  | _ => none

/-- The data addresses that an instruction reads as its operand, by the reads column of 20_memory.md R61, without the
pointer registers and A, whose reads have no side effect. -/
def operandAddress (s : State) (i : Instr) : Option Byte :=
  match i.expand with
  | .ldAReg r | .incReg r | .decReg r => some (effectiveAddress s (.short r))
  | .ldAInd p | .addAInd p | .andAInd p | .subAInd p | .cpAInd p | .incInd p | .decInd p =>
    some (effectiveAddress s (.indirect p))
  | .ldADir rr | .addADir rr | .andADir rr | .subADir rr | .cpADir rr | .incDir rr | .decDir rr => some rr
  | .res _ rr | .set _ rr | .jrr _ rr _ | .jrs _ rr _ => some rr
  | _ => none

/-- Whether an instruction writes Z (10_state.md R33). -/
def writesZ (i : Instr) : Bool :=
  match i.expand with
  | .ldAReg _ | .ldRegA _ | .ldAInd _ | .ldIndA _ | .ldADir _ | .ldDirA _ | .ldiA _ => true
  | .addAInd _ | .addADir _ | .addiA _ | .andAInd _ | .andADir _ | .andiA _ => true
  | .subAInd _ | .subADir _ | .subiA _ | .cpAInd _ | .cpADir _ | .cpiA _ => true
  | .incReg _ | .incInd _ | .incDir _ | .decReg _ | .decInd _ | .decDir _ | .comA | .rlcA => true
  | _ => false

/-- Whether an instruction writes C (10_state.md R33). -/
def writesC (i : Instr) : Bool :=
  match i.expand with
  | .addAInd _ | .addADir _ | .addiA _ | .subAInd _ | .subADir _ | .subiA _ => true
  | .cpAInd _ | .cpADir _ | .cpiA _ | .comA | .rlcA | .jrr _ _ _ | .jrs _ _ _ => true
  | _ => false

/-- The address is one of the registers whose content decides what other addresses show (10_state.md R38). -/
def IsControlAddress (s : State) (a : Byte) : Prop := ∃ c, s.place a = .device (.control c)

/-- `t` with `v` in A, `z` and `c` in the active flag pair, and the pc moved on by `n`; nothing else is changed. -/
def accResult (t : State) (v : Byte) (z c : Bool) (n : PAddr) : State :=
  { t with regs := { t.regs with a := v }, flags := t.flags.setActive t.mode ⟨z, c⟩, pc := t.pc + n }

/-- `t` with `z` and `c` in the active flag pair, and the pc moved on by `n`; nothing else is changed. -/
def flagResult (t : State) (z c : Bool) (n : PAddr) : State :=
  { t with flags := t.flags.setActive t.mode ⟨z, c⟩, pc := t.pc + n }

/-- An instruction that can put another value in the pc than the address of the next instruction (10_state.md R25). -/
def isTransfer (i : Instr) : Bool :=
  match i.expand with
  | .jrnz _ | .jrnc _ | .jrz _ | .jrc _ | .jrr _ _ _ | .jrs _ _ _ | .jp _ | .call _ | .ret | .reti => true
  | _ => false

/-- The return addresses that are stacked, the top first (10_state.md R28). -/
def stackedAddresses (k : Stack) : List PAddr := [k.l1, k.l2, k.l3, k.l4, k.l5, k.l6].take k.level

/-- Push every value of a list, the first of the list first; none if one push is the fault. -/
def pushAll (o : StackOverflow) (k : Stack) : List PAddr → Option Stack
  | [] => some k
  | v :: vs =>
    match pushed o k v with
    | some k' => pushAll o k' vs
    | none => none

/-- Pop `n` times: the values, in the order they come, and the stack after; none if the stack is empty before. -/
def popTimes (k : Stack) : Nat → Option (List PAddr × Stack)
  | 0 => some ([], k)
  | n + 1 =>
    match popped k with
    | none => none
    | some (v, k') =>
      match popTimes k' n with
      | some (vs, k'') => some (v :: vs, k'')
      | none => none

end Sys2Proof.Machine
end

