-- ==== Sys2Proof/Certificates/Slice0/Obligations.lean ====
section
/-! DEFINITION. The statements for the provers. Each is quantified over every state, so over every device (the
parameters of 00_scope.md R4 stand in the state), every environment schedule and every program.

Choices that many statements share, named again where a statement turns on one: a sum on the pc past 0FFFh wraps (the spec's
decision D2; log entry 27); an instruction reads its operand once, and before it writes (log entry 34); `dataValue`,
`afterRead` and `writeData` at an address that is no core register and no RAM follow U6, U7 and U10 of
93_implementation_defined.md (log entries 8, 11 to 14). -/

open Sys2Proof Sys2Proof.Machine

/-! ### Encoding -/

/-- 30_encoding.md R82 to R92: no bit of an encoding is dropped, for every well-formed instruction and every operand. -/
def Obligations.DecodeOfEncodeIsIdentity : Prop :=
  ∀ (i : Instr) (rest : List Byte), WellFormed i = true → decode (encode i ++ rest) = .ok (i, rest)

/-- 30_encoding.md R80, R94, R96: what the decoder gives encodes to exactly the bytes it consumed, the illegal opcodes
among them, and is never a written form. The model's choices: an illegal opcode, whose length R81, R95 and
93_implementation_defined.md U1 leave undefined, decodes as one byte (log entry 30); a written form is what no bytes
decode to, 04h being JRZ (90_conflicts.md C7; log entry 31). R96 is derived, by the spec, from R85, R86, R92. -/
def Obligations.EncodeOfDecodeIsIdentity : Prop :=
  ∀ (bytes rest : List Byte) (i : Instr), decode bytes = .ok (i, rest) → bytes = encode i ++ rest ∧ i.hasOpcode = true

/-- 30_encoding.md R99: a written form has no encoding of its own; its bytes decode to the instruction it is written for
(that 04h decodes as JRZ is 90_conflicts.md C7; log entry 31). -/
def Obligations.WrittenFormsEncodeTheirExpansion : Prop :=
  ∀ (i : Instr) (rest : List Byte), i.hasOpcode = false →
    encode i = encode i.expand ∧ WellFormed i.expand = true ∧ decode (encode i ++ rest) = .ok (i.expand, rest)

/-- 30_encoding.md R80: the opcode byte alone determines the instruction and the length; the operand bytes do not. For
the illegal opcodes, whose length the spec leaves undefined, that is the model's choice of one byte (log entry 30). -/
def Obligations.FirstByteDecidesInstruction : Prop :=
  ∀ (op : Byte) (xs ys rx ry : List Byte) (i j : Instr),
    decode (op :: xs) = .ok (i, rx) → decode (op :: ys) = .ok (j, ry) →
      i.ctorIdx = j.ctorIdx ∧ xs.length + ry.length = ys.length + rx.length

/-- 30_encoding.md R95, R94: a first byte is illegal exactly if it is one of the twelve, whatever follows it. That they
decode at all, each to a constructor of its own, is the model's choice for the stop of decision D11 (log entry 30). -/
def Obligations.TwelveFirstBytesAreIllegal : Prop :=
  ∀ op b1 b2 : Byte, (decodeInstr op b1 b2).isLegal = false ↔
    op ∈ [0x05#8, 0x25#8, 0x45#8, 0x65#8, 0x85#8, 0xA5#8, 0xC5#8, 0xE5#8, 0x77#8, 0x97#8, 0xF7#8, 0x8D#8]

/-- 30_encoding.md R81: the length as a function of the first byte, by the table's conditions, first match wins (the
length of an illegal opcode is not defined, and is left out). -/
def Obligations.LengthFollowsFirstByte : Prop :=
  ∀ op : Byte, (decodeInstr op 0#8 0#8).isLegal = true →
    instrLength op =
      if op.toNat % 2 = 0 then 1
      else if op.toNat % 16 = 1 ∨ op.toNat % 16 = 9 then 2
      else if op.toNat % 16 = 3 then 3
      else if op.toNat % 16 = 11 then 2
      else if op.toNat % 16 = 5 ∧ op.getLsbD 4 = true then 1
      else if op = 0x0D#8 then 3
      else if op.toNat % 16 = 13 ∧ op.getLsbD 4 = true then 1
      else if op.toNat % 16 = 13 ∧ op.getLsbD 4 = false then 1
      else if op.toNat % 8 = 7 ∧ op.getLsbD 4 = false then 1
      else 2

/-- 30_encoding.md R94, a few words written out from the map, one of each format. That the illegal opcode consumes one
byte is the model's choice (log entry 30). -/
def Obligations.SampleWordsDecode : Prop :=
  decode [0xD0#8] = .ok (.jrnz 0b11010#5, []) ∧
  decode [0xC1#8, 0x8D#8] = .ok (.call 0x8DC#12, []) ∧
  decode [0xC3#8, 0x84#8, 0x10#8] = .ok (.jrr 3#3 0x84#8 0x10#8, []) ∧
  decode [0x5B#8, 0xC0#8] = .ok (.set 2#3 0xC0#8, []) ∧
  decode [0xB5#8] = .ok (.ldAReg .v, []) ∧
  decode [0x0D#8, 0x84#8, 0x7E#8] = .ok (.ldiDir 0x84#8 0x7E#8, []) ∧
  decode [0x8F#8] = .ok (.ldIndA .y, []) ∧
  decode [0xD7#8, 0x25#8] = .ok (.subiA 0x25#8, []) ∧
  decode [0x3F#8, 0x34#8] = .ok (.cpADir 0x34#8, []) ∧
  decode [0xAD#8] = .ok (.rlcA, []) ∧
  decode [0x97#8] = .ok (.illegal97, [])

/-! ### The step -/

/-- 60_exceptions.md R237, 20_memory.md R69: when no reset and no accepted request is presented and the core runs, and
the bytes at the pc decode to `i`, the step is `i`, executed in the state whose boundary is past. That the addresses of
the bytes wrap modulo 4096 is the spec's decision D2 (log entry 27). That nothing but an instruction boundary
recognises a reset or a request is its decision D10 (log entry 21). -/
def Obligations.StepRunsDecodedInstruction : Prop :=
  ∀ (s : State) (bytes : List Byte) (i : Instr),
    stepSort s = .execute → fetchBytes s s.pc bytes.length = .ok bytes → decode bytes = .ok (i, []) →
      step s = exec i (pastBoundary s)

/-- 60_exceptions.md R237, R234, R235, R251: a step is a reset, the entry to the lowest-numbered acceptable request, an
instruction, or nothing but the passing of the boundary, in that order. The model's choices, by the spec's decisions:
that it happens between instructions only (D10, log entry 21), that the NMI ranks first (D24, log entry 22), that a
request which is not acceptable leaves a waiting or stopped core as it is (D25, log entry 24), and that a fetch of a
byte that the program image does not implement, the opcode or a later one, is the fault that names the first such
address (20_memory.md R69, 93_implementation_defined.md U5; log entry 2), addresses modulo 4096 (D2, log entry 27).
Which requests are acceptable follows D19, D22 and D26 (log entries 20, 22). -/
def Obligations.StepFollowsBoundary : Prop :=
  ∀ s : State,
    ((presented s).reset = true → step s = .next (resetInput (pastBoundary s))) ∧
    (∀ n, (presented s).reset = false → accepts s n = true →
      (∀ m, accepts s m = true → requestNumber n ≤ requestNumber m) → step s = takeInterrupt n (pastBoundary s)) ∧
    (∀ i, (presented s).reset = false → (∀ m, accepts s m = false) → s.run = .running → fetchInstr s = .ok i →
      step s = exec i (pastBoundary s)) ∧
    ((presented s).reset = false → (∀ m, accepts s m = false) → s.run = .running → fetchByte s s.pc = none →
      step s = .fault (.fetchUnimplemented s.pc)) ∧
    (∀ op k, (presented s).reset = false → (∀ m, accepts s m = false) → s.run = .running →
      fetchByte s s.pc = some op → k < instrLength op → (∀ j, j < k → fetchByte s (s.pc + BitVec.ofNat 12 j) ≠ none) →
      fetchByte s (s.pc + BitVec.ofNat 12 k) = none →
      step s = .fault (.fetchUnimplemented (s.pc + BitVec.ofNat 12 k))) ∧
    ((presented s).reset = false → (∀ m, accepts s m = false) → s.run ≠ .running → step s = .next (pastBoundary s))

/-- 30_encoding.md R95, 92_eei_decisions.md D11 (log entry 30): executing an illegal opcode stops the model and names the
opcode. -/
def Obligations.IllegalOpcodeStops : Prop :=
  ∀ (s : State) (i : Instr), i.isLegal = false →
    ∃ op, encode i = [op] ∧ exec i s = .fault (.illegalOpcode op)

/-- 60_exceptions.md R230: no legal instruction raises anything; every one completes, CALL unless its push is the fault
of 10_state.md R29. That push is the parameter that the spec leaves open (D7; log entry 4). That RETI in Normal mode
runs is decision D9 (log entry 28), and that accesses to the ROM window, to reserved and to unimplemented addresses
complete is treatment U6, U7 (log entries 12, 13, 14). -/
def Obligations.LegalInstructionsComplete : Prop :=
  ∀ (s : State) (i : Instr), i.isLegal = true → ((∃ abc, i = .call abc) → CanPush s) → ∃ t, exec i s = .next t

/-! ### Load and store

A statement about a direct form is about every instruction that is written for it: `i.expand` is the direct form for the
form itself and for its written forms (30_encoding.md R99). -/

/-- 40_load_store.md R110, R112, R114. -/
def Obligations.LoadsPutDataInA : Prop :=
  (∀ (s : State) (r : ShortReg), exec (.ldAReg r) s =
    .next (accResult s (dataValue s (shortAddress r)) (decide (dataValue s (shortAddress r) = 0#8)) s.cFlag 1#12)) ∧
  (∀ (s : State) (p : Pointer), exec (.ldAInd p) s =
    .next (accResult (afterRead s (pointerValue s p)) (dataValue s (pointerValue s p))
      (decide (dataValue s (pointerValue s p) = 0#8)) s.cFlag 1#12)) ∧
  (∀ (s : State) (i : Instr) (rr : Byte), i.expand = .ldADir rr → encode i = [0x1F#8, rr] ∧ exec i s =
    .next (accResult (afterRead s rr) (dataValue s rr) (decide (dataValue s rr = 0#8)) s.cFlag 2#12)) ∧
  [encode (.ldAReg .x), encode (.ldAReg .y), encode (.ldAReg .v), encode (.ldAReg .w)] =
    [[0x35#8], [0x75#8], [0xB5#8], [0xF5#8]] ∧
  [encode (.ldAInd .x), encode (.ldAInd .y)] = [[0x07#8], [0x0F#8]]

/-- 40_load_store.md R111, R113, R115. Where a store goes to the ROM window or to a reserved or unimplemented address, what
`writeData` does is the spec's treatment U6, U7 (log entries 12, 13). -/
def Obligations.StoresWriteA : Prop :=
  (∀ (s : State) (r : ShortReg), exec (.ldRegA r) s =
    .next (flagResult (writeData s (shortAddress r) s.regs.a) (decide (s.regs.a = 0#8)) s.cFlag 1#12)) ∧
  (∀ (s : State) (p : Pointer), exec (.ldIndA p) s =
    .next (flagResult (writeData s (pointerValue s p) s.regs.a) (decide (s.regs.a = 0#8)) s.cFlag 1#12)) ∧
  (∀ (s : State) (rr : Byte), exec (.ldDirA rr) s =
    .next (flagResult (writeData s rr s.regs.a) (decide (s.regs.a = 0#8)) s.cFlag 2#12)) ∧
  [encode (.ldRegA .x), encode (.ldRegA .y), encode (.ldRegA .v), encode (.ldRegA .w)] =
    [[0x3D#8], [0x7D#8], [0xBD#8], [0xFD#8]] ∧
  [encode (.ldIndA .x), encode (.ldIndA .y)] = [[0x87#8], [0x8F#8]] ∧
  (∀ rr : Byte, encode (.ldDirA rr) = [0x9F#8, rr])

/-- 40_load_store.md R116, R117: `LDI A,nn` writes Z, `LDI rr,nn` no flag. -/
def Obligations.LoadImmediateEffect : Prop :=
  (∀ (s : State) (nn : Byte), exec (.ldiA nn) s = .next (accResult s nn (decide (nn = 0#8)) s.cFlag 2#12)) ∧
  (∀ (s : State) (i : Instr) (rr nn : Byte), i.expand = .ldiDir rr nn →
    encode i = [0x0D#8, rr, nn] ∧ exec i s = .next { writeData s rr nn with pc := s.pc + 3#12 }) ∧
  (∀ nn : Byte, encode (.ldiA nn) = [0x17#8, nn])

/-! ### Arithmetic and logic -/

/-- 41_arithmetic_logic.md R130, R131, R132, R153: the sum of unsigned bytes modulo 256, its carry out and its zero bit;
the old C does not enter. -/
def Obligations.AdditionsToA : Prop :=
  (∀ (s : State) (p : Pointer), exec (.addAInd p) s =
    .next (accResult (afterRead s (pointerValue s p))
      (BitVec.ofNat 8 ((s.regs.a.toNat + (dataValue s (pointerValue s p)).toNat) % 256))
      (decide ((s.regs.a.toNat + (dataValue s (pointerValue s p)).toNat) % 256 = 0))
      (decide (256 ≤ s.regs.a.toNat + (dataValue s (pointerValue s p)).toNat)) 1#12)) ∧
  (∀ (s : State) (i : Instr) (rr : Byte), i.expand = .addADir rr → encode i = [0x5F#8, rr] ∧ exec i s =
    .next (accResult (afterRead s rr) (BitVec.ofNat 8 ((s.regs.a.toNat + (dataValue s rr).toNat) % 256))
      (decide ((s.regs.a.toNat + (dataValue s rr).toNat) % 256 = 0))
      (decide (256 ≤ s.regs.a.toNat + (dataValue s rr).toNat)) 2#12)) ∧
  (∀ (s : State) (nn : Byte), exec (.addiA nn) s =
    .next (accResult s (BitVec.ofNat 8 ((s.regs.a.toNat + nn.toNat) % 256))
      (decide ((s.regs.a.toNat + nn.toNat) % 256 = 0)) (decide (256 ≤ s.regs.a.toNat + nn.toNat)) 2#12)) ∧
  [encode (.addAInd .x), encode (.addAInd .y)] = [[0x47#8], [0x4F#8]] ∧
  (∀ n : Byte, encode (.addiA n) = [0x57#8, n])

/-- 41_arithmetic_logic.md R133, R134, R135: bitwise AND; C is unaffected. -/
def Obligations.ConjunctionsWithA : Prop :=
  (∀ (s : State) (p : Pointer), exec (.andAInd p) s =
    .next (accResult (afterRead s (pointerValue s p)) (s.regs.a &&& dataValue s (pointerValue s p))
      (decide (s.regs.a &&& dataValue s (pointerValue s p) = 0#8)) s.cFlag 1#12)) ∧
  (∀ (s : State) (i : Instr) (rr : Byte), i.expand = .andADir rr → encode i = [0xBF#8, rr] ∧ exec i s =
    .next (accResult (afterRead s rr) (s.regs.a &&& dataValue s rr) (decide (s.regs.a &&& dataValue s rr = 0#8))
      s.cFlag 2#12)) ∧
  (∀ (s : State) (nn : Byte), exec (.andiA nn) s =
    .next (accResult s (s.regs.a &&& nn) (decide (s.regs.a &&& nn = 0#8)) s.cFlag 2#12)) ∧
  [encode (.andAInd .x), encode (.andAInd .y)] = [[0xA7#8], [0xAF#8]] ∧
  (∀ n : Byte, encode (.andiA n) = [0xB7#8, n])

/-- 41_arithmetic_logic.md R150 to R152 with R154: the difference modulo 256; Z for equal operands; C exactly if A is less,
unsigned. That C is 0 for equal operands is the spec's inference (R154; log entry 26). -/
def Obligations.SubtractionsFromA : Prop :=
  (∀ (s : State) (p : Pointer), exec (.subAInd p) s =
    .next (accResult (afterRead s (pointerValue s p))
      (BitVec.ofNat 8 ((256 + s.regs.a.toNat - (dataValue s (pointerValue s p)).toNat) % 256))
      (decide (s.regs.a = dataValue s (pointerValue s p)))
      (decide (s.regs.a.toNat < (dataValue s (pointerValue s p)).toNat)) 1#12)) ∧
  (∀ (s : State) (i : Instr) (rr : Byte), i.expand = .subADir rr → encode i = [0xDF#8, rr] ∧ exec i s =
    .next (accResult (afterRead s rr) (BitVec.ofNat 8 ((256 + s.regs.a.toNat - (dataValue s rr).toNat) % 256))
      (decide (s.regs.a = dataValue s rr)) (decide (s.regs.a.toNat < (dataValue s rr).toNat)) 2#12)) ∧
  (∀ (s : State) (nn : Byte), exec (.subiA nn) s =
    .next (accResult s (BitVec.ofNat 8 ((256 + s.regs.a.toNat - nn.toNat) % 256)) (decide (s.regs.a = nn))
      (decide (s.regs.a.toNat < nn.toNat)) 2#12))

/-- 41_arithmetic_logic.md R139 to R141 with R154: the flags of the subtraction; A is never written. That C is 0 for equal
operands is the spec's decision D6 (log entry 26). -/
def Obligations.ComparisonsWithA : Prop :=
  (∀ (s : State) (p : Pointer), exec (.cpAInd p) s =
    .next (flagResult (afterRead s (pointerValue s p)) (decide (s.regs.a = dataValue s (pointerValue s p)))
      (decide (s.regs.a.toNat < (dataValue s (pointerValue s p)).toNat)) 1#12)) ∧
  (∀ (s : State) (i : Instr) (rr : Byte), i.expand = .cpADir rr → encode i = [0x3F#8, rr] ∧ exec i s =
    .next (flagResult (afterRead s rr) (decide (s.regs.a = dataValue s rr))
      (decide (s.regs.a.toNat < (dataValue s rr).toNat)) 2#12)) ∧
  (∀ (s : State) (nn : Byte), exec (.cpiA nn) s =
    .next (flagResult s (decide (s.regs.a = nn)) (decide (s.regs.a.toNat < nn.toNat)) 2#12))

/-- 41_arithmetic_logic.md R145, R146, R147: the location, not the pointer, is incremented modulo 256; C is unaffected. -/
def Obligations.IncrementsOfData : Prop :=
  (∀ (s : State) (r : ShortReg), exec (.incReg r) s =
    .next (flagResult (writeData s (shortAddress r) (BitVec.ofNat 8 (((dataValue s (shortAddress r)).toNat + 1) % 256)))
      (decide (((dataValue s (shortAddress r)).toNat + 1) % 256 = 0)) s.cFlag 1#12)) ∧
  (∀ (s : State) (p : Pointer), exec (.incInd p) s =
    .next (flagResult (writeData (afterRead s (pointerValue s p)) (pointerValue s p)
      (BitVec.ofNat 8 (((dataValue s (pointerValue s p)).toNat + 1) % 256)))
      (decide (((dataValue s (pointerValue s p)).toNat + 1) % 256 = 0)) s.cFlag 1#12)) ∧
  (∀ (s : State) (i : Instr) (rr : Byte), i.expand = .incDir rr → encode i = [0x7F#8, rr] ∧ exec i s =
    .next (flagResult (writeData (afterRead s rr) rr (BitVec.ofNat 8 (((dataValue s rr).toNat + 1) % 256)))
      (decide (((dataValue s rr).toNat + 1) % 256 = 0)) s.cFlag 2#12)) ∧
  [encode (.incReg .x), encode (.incReg .y), encode (.incReg .v), encode (.incReg .w)] =
    [[0x15#8], [0x55#8], [0x95#8], [0xD5#8]] ∧
  [encode (.incInd .x), encode (.incInd .y)] = [[0x67#8], [0x6F#8]]

/-- 41_arithmetic_logic.md R142, R143, R144: the location, not the pointer, is decremented modulo 256; C is unaffected. -/
def Obligations.DecrementsOfData : Prop :=
  (∀ (s : State) (r : ShortReg), exec (.decReg r) s =
    .next (flagResult (writeData s (shortAddress r)
      (BitVec.ofNat 8 (((dataValue s (shortAddress r)).toNat + 255) % 256)))
      (decide ((dataValue s (shortAddress r)).toNat = 1)) s.cFlag 1#12)) ∧
  (∀ (s : State) (p : Pointer), exec (.decInd p) s =
    .next (flagResult (writeData (afterRead s (pointerValue s p)) (pointerValue s p)
      (BitVec.ofNat 8 (((dataValue s (pointerValue s p)).toNat + 255) % 256)))
      (decide ((dataValue s (pointerValue s p)).toNat = 1)) s.cFlag 1#12)) ∧
  (∀ (s : State) (i : Instr) (rr : Byte), i.expand = .decDir rr → encode i = [0xFF#8, rr] ∧ exec i s =
    .next (flagResult (writeData (afterRead s rr) rr (BitVec.ofNat 8 (((dataValue s rr).toNat + 255) % 256)))
      (decide ((dataValue s rr).toNat = 1)) s.cFlag 2#12)) ∧
  [encode (.decReg .x), encode (.decReg .y), encode (.decReg .v), encode (.decReg .w)] =
    [[0x1D#8], [0x5D#8], [0x9D#8], [0xDD#8]] ∧
  [encode (.decInd .x), encode (.decInd .y)] = [[0xE7#8], [0xEF#8]]

/-- 41_arithmetic_logic.md R138, R148: COM complements A and RLC rotates the nine bits (C, A), both with the old bit 7
in C. -/
def Obligations.ComplementAndRotateA : Prop :=
  (∀ s : State, exec .comA s =
    .next (accResult s (s.regs.a ^^^ 0xFF#8) (decide (s.regs.a ^^^ 0xFF#8 = 0#8)) (s.regs.a.getLsbD 7) 1#12)) ∧
  (∀ s : State, exec .rlcA s =
    .next (accResult s (BitVec.ofNat 8 (s.regs.a.toNat * 2 % 256 + s.cFlag.toNat))
      (decide (s.regs.a.toNat * 2 % 256 + s.cFlag.toNat = 0)) (s.regs.a.getLsbD 7) 1#12)) ∧
  encode .comA = [0x2D#8] ∧ encode .rlcA = [0xAD#8]

/-- 41_arithmetic_logic.md R148: "nine successive RLC restore A and C". -/
def Obligations.NineRotationsRestore : Prop :=
  ∀ s t1 t2 t3 t4 t5 t6 t7 t8 t9 : State,
    exec .rlcA s = .next t1 → exec .rlcA t1 = .next t2 → exec .rlcA t2 = .next t3 → exec .rlcA t3 = .next t4 →
    exec .rlcA t4 = .next t5 → exec .rlcA t5 = .next t6 → exec .rlcA t6 = .next t7 → exec .rlcA t7 = .next t8 →
    exec .rlcA t8 = .next t9 → t9.regs = s.regs ∧ t9.cFlag = s.cFlag

/-! ### Branches, jumps, calls -/

/-- 42_conditional_branch.md R170 to R174: the branch is taken on the flag of the active pair, to
`(pc + 1 + sext_5(e)) mod 4096`; nothing but the pc changes. That sums on the pc wrap is the spec's decision D2 (log entry
27). -/
def Obligations.FlagBranchesMovePc : Prop :=
  ∀ (s : State) (e : Disp5),
    exec (.jrnz e) s = .next { s with
      pc := if s.zFlag = false then BitVec.ofInt 12 ((s.pc.toNat : Int) + 1 + e.toInt) else s.pc + 1#12 } ∧
    exec (.jrnc e) s = .next { s with
      pc := if s.cFlag = false then BitVec.ofInt 12 ((s.pc.toNat : Int) + 1 + e.toInt) else s.pc + 1#12 } ∧
    exec (.jrz e) s = .next { s with
      pc := if s.zFlag = true then BitVec.ofInt 12 ((s.pc.toNat : Int) + 1 + e.toInt) else s.pc + 1#12 } ∧
    exec (.jrc e) s = .next { s with
      pc := if s.cFlag = true then BitVec.ofInt 12 ((s.pc.toNat : Int) + 1 + e.toInt) else s.pc + 1#12 } ∧
    encode (.jrnz e) = [BitVec.ofNat 8 (e.toNat * 8)] ∧ encode (.jrnc e) = [BitVec.ofNat 8 (e.toNat * 8 + 2)] ∧
    encode (.jrz e) = [BitVec.ofNat 8 (e.toNat * 8 + 4)] ∧ encode (.jrc e) = [BitVec.ofNat 8 (e.toNat * 8 + 6)]

/-- 42_conditional_branch.md R175 to R177: C receives the tested bit, taken or not; the target is counted from the
instruction's address plus `BT_BASE`, the parameter of the device that the spec leaves open (D4; log entry 29). That sums on
the pc wrap modulo 4096 is the spec's decision D2 (log entry 27). -/
def Obligations.BitBranchesTestOneBit : Prop :=
  ∀ (s : State) (b : BitNo) (rr ee : Byte),
    exec (.jrr b rr ee) s = .next { afterRead s rr with
      flags := s.flags.setActive s.mode ⟨s.zFlag, (dataValue s rr).getLsbD b.toNat⟩
      pc := if (dataValue s rr).getLsbD b.toNat = false
        then BitVec.ofInt 12 ((s.pc.toNat : Int) + (btBaseOffset s.device.btBase).toNat + ee.toInt)
        else s.pc + 3#12 } ∧
    exec (.jrs b rr ee) s = .next { afterRead s rr with
      flags := s.flags.setActive s.mode ⟨s.zFlag, (dataValue s rr).getLsbD b.toNat⟩
      pc := if (dataValue s rr).getLsbD b.toNat = true
        then BitVec.ofInt 12 ((s.pc.toNat : Int) + (btBaseOffset s.device.btBase).toNat + ee.toInt)
        else s.pc + 3#12 }

/-- 45_jump_call.md R221. -/
def Obligations.JumpReplacesPc : Prop :=
  ∀ (s : State) (abc : PAddr), exec (.jp abc) s = .next { s with pc := abc } ∧
    encode (.jp abc) = [BitVec.ofNat 8 (abc.toNat % 16 * 16 + 9), BitVec.ofNat 8 (abc.toNat / 16)]

/-- 45_jump_call.md R220 with 10_state.md R29, while a cell is free: the address of the next instruction goes to level 1
and the others move down. That it is `pc + 2` is the spec's decision D5 (log entry 25), and that the sum wraps modulo 4096
its decision D2 (log entry 27). -/
def Obligations.CallStacksReturnAddress : Prop :=
  ∀ (s : State) (abc : PAddr), s.stack.level < 6 → exec (.call abc) s = .next { s with
    stack := { l1 := s.pc + 2#12, l2 := s.stack.l1, l3 := s.stack.l2, l4 := s.stack.l3, l5 := s.stack.l4,
               l6 := s.stack.l5, level := s.stack.level + 1 }
    pc := abc }

/-- 45_jump_call.md R220 with 10_state.md R29, on a full stack: what the push leaves goes by the device's `STACK_OVERFLOW`,
which the spec leaves open (D7; log entry 4). That the value pushed is `pc + 2` is the spec's decision D5 (log entry 25), and
that the sum wraps modulo 4096 its decision D2 (log entry 27): the model's choices, as for CALL with a free cell. -/
def Obligations.CallOnFullStack : Prop :=
  ∀ (s : State) (abc : PAddr), 6 ≤ s.stack.level →
    (s.device.stackOverflow = .fault → exec (.call abc) s = .fault .stackOverflow) ∧
    (s.device.stackOverflow = .dropNew → exec (.call abc) s = .next { s with pc := abc }) ∧
    (s.device.stackOverflow = .overwriteTop → exec (.call abc) s = .next { s with
      stack := { s.stack with l1 := s.pc + 2#12 }
      pc := abc })

/-- 45_jump_call.md R220, 44_control.md R201: a RET, wherever it stands, after a CALL goes back to the instruction after
the CALL and leaves the stacked addresses and everything else as the CALL found them. That the place it goes back to is
`pc + 2` is the spec's decision D5 (log entry 25; the source never writes `pc + 2`), and that the sum wraps modulo 4096 its
decision D2 (log entry 27): the model's choices. -/
def Obligations.RetAfterCallReturns : Prop :=
  ∀ (s t : State) (abc p : PAddr), s.stack.level < 6 → exec (.call abc) s = .next t →
    ∃ u, exec .ret { t with pc := p } = .next u ∧ u = { s with pc := s.pc + 2#12, stack := u.stack } ∧
      u.stack.level = s.stack.level ∧
      [u.stack.l1, u.stack.l2, u.stack.l3, u.stack.l4, u.stack.l5] =
        [s.stack.l1, s.stack.l2, s.stack.l3, s.stack.l4, s.stack.l5]

/-! ### Bits -/

/-- 43_bit_manipulation.md R190, R191: one bit of the byte read is cleared or set and the byte is written back; no flag is
written. That the whole byte is read once and written once is the spec's decision D28 (R192; log entry 33). -/
def Obligations.BitInstructionsWriteByteBack : Prop :=
  ∀ (s : State) (i : Instr) (b : BitNo) (rr : Byte),
    (i.expand = .res b rr →
      encode i = [[0x0B#8, 0x8B#8, 0x4B#8, 0xCB#8, 0x2B#8, 0xAB#8, 0x6B#8, 0xEB#8].getD b.toNat 0#8, rr] ∧
      exec i s = .next { writeData (afterRead s rr) rr (dataValue s rr &&& (0xFF#8 ^^^ (1#8 <<< b.toNat))) with
        pc := s.pc + 2#12 }) ∧
    (i.expand = .set b rr →
      encode i = [[0x1B#8, 0x9B#8, 0x5B#8, 0xDB#8, 0x3B#8, 0xBB#8, 0x7B#8, 0xFB#8].getD b.toNat 0#8, rr] ∧
      exec i s = .next { writeData (afterRead s rr) rr (dataValue s rr ||| (1#8 <<< b.toNat)) with
        pc := s.pc + 2#12 })

/-- 43_bit_manipulation.md R190 to R192, read back through MemRead, on core registers and RAM: exactly the named bit is
now 0 or 1, and the other seven are what they were. That the whole byte is read and written is the spec's decision D28
(R192; log entry 33), which no such location can tell from a write of one bit. -/
def Obligations.BitInstructionsChangeOneBit : Prop :=
  ∀ (s t : State) (b : BitNo) (rr : Byte),
    ((∃ r, s.place rr = .core r) ∨ s.place rr = .device .ram) →
      (exec (.res b rr) s = .next t → ∀ n : BitNo,
        (dataValue t rr).getLsbD n.toNat = if n = b then false else (dataValue s rr).getLsbD n.toNat) ∧
      (exec (.set b rr) s = .next t → ∀ n : BitNo,
        (dataValue t rr).getLsbD n.toNat = if n = b then true else (dataValue s rr).getLsbD n.toNat)

/-! ### Control -/

/-- 44_control.md R201 with 10_state.md R30: the popped address, or the next instruction if the stack is empty. -/
def Obligations.RetPopsPc : Prop :=
  ∀ s : State,
    (s.stack.level = 0 → exec .ret s = .next { s with pc := s.pc + 1#12 }) ∧
    (0 < s.stack.level → exec .ret s = .next { s with
      stack := { l1 := s.stack.l2, l2 := s.stack.l3, l3 := s.stack.l4, l4 := s.stack.l5, l5 := s.stack.l6,
                 l6 := s.stack.l6, level := s.stack.level - 1 }
      pc := s.stack.l1 }) ∧
    encode .ret = [0xCD#8]

/-- 44_control.md R202, R203 and the spec's decision D9 for Normal mode (R204; log entry 28): the pc is popped as by
RET, the mode steps back one level whether or not the stack is empty, and no flag bit is written. That no flag pair is
written, copied or cleared when the mode switches it is the spec's decision D23 (10_state.md R35; log entry 32). -/
def Obligations.RetiStepsModeBack : Prop :=
  ∀ s : State,
    (s.stack.level = 0 → exec .reti s = .next { s with mode := modeOnReturn s.mode, pc := s.pc + 1#12 }) ∧
    (0 < s.stack.level → exec .reti s = .next { s with
      mode := modeOnReturn s.mode
      stack := { l1 := s.stack.l2, l2 := s.stack.l3, l3 := s.stack.l4, l4 := s.stack.l5, l5 := s.stack.l6,
                 l6 := s.stack.l6, level := s.stack.level - 1 }
      pc := s.stack.l1 }) ∧
    modeOnReturn .int = .normal ∧ modeOnReturn .nmiFromNormal = .normal ∧ modeOnReturn .nmiFromInt = .int ∧
    modeOnReturn .normal = .normal

/-- 44_control.md R205, R206: only the pc and the run state change; STOP is WAIT if the watchdog function is selected.
Whether it is selected is the parameter that the spec leaves open (D21; log entry 3). -/
def Obligations.StopAndWaitChangeRunState : Prop :=
  ∀ s : State,
    (s.device.watchdogSelected = false → exec .stop s = .next { s with pc := s.pc + 1#12, run := .stopped }) ∧
    (s.device.watchdogSelected = true → exec .stop s = .next { s with pc := s.pc + 1#12, run := .waiting }) ∧
    exec .wait s = .next { s with pc := s.pc + 1#12, run := .waiting }

/-- 30_encoding.md R99: a written form completes, and its effect and flags are those of the instruction it is written
for. -/
def Obligations.WrittenFormsActAsExpansion : Prop :=
  ∀ (s : State) (i : Instr), i.hasOpcode = false → ∃ t, exec i s = .next t ∧ exec i.expand s = .next t

/-- 44_control.md R200, 41_arithmetic_logic.md R136, R137, R149: what NOP, CLR A, CLR rr and SLA A do. -/
def Obligations.PseudoInstructionEffects : Prop :=
  ∀ s : State,
    exec .nop s = .next { s with pc := s.pc + 1#12 } ∧
    exec .clrA s = .next (accResult s 0x00#8 true false 2#12) ∧
    (∀ rr : Byte, exec (.clrDir rr) s = .next { writeData s rr 0x00#8 with pc := s.pc + 3#12 }) ∧
    exec .slaA s = .next (accResult s (BitVec.ofNat 8 (2 * s.regs.a.toNat % 256))
      (decide (2 * s.regs.a.toNat % 256 = 0)) (s.regs.a.getLsbD 7) 2#12)

/-! ### Frames -/

/-- 20_memory.md R61, R55: an instruction changes no data byte but the one it writes, at the address that its
addressing mode gives in the state before. Where that is a register that controls banks or the window (10_state.md
R38), other addresses may show other bytes; every cell of data RAM, in every bank, and every register but the written
one keeps its byte all the same. R61 is derived by the spec. The model's choices: that a write to the ROM window, to a
reserved or to an unimplemented address changes no byte at all (U6, U7; log entries 12, 13), and that SET and RES write
the whole byte (D28; log entry 33). -/
def Obligations.InstructionWritesOneByte : Prop :=
  ∀ (s t : State) (i : Instr), exec i s = .next t →
    (∀ b, writtenAddress s i ≠ some b → (∀ a, writtenAddress s i = some a → ¬ IsControlAddress s a) →
      storedByte t b = storedByte s b) ∧
    (∀ j, (∀ a k, writtenAddress s i = some a → s.place a = .device k → ramCell s a k ≠ some j) →
      t.ram.read j = s.ram.read j) ∧
    (∀ r, writtenAddress s i ≠ some (regAddr r) → t.regs.get r = s.regs.get r)

/-- 10_state.md R32, R33: an instruction writes no flag of the pairs its mode does not select, and of the active pair
only the bits the table gives it; RETI writes no flag bit. That RETI, which switches the pair, copies and clears none
is the spec's decision D23 (R35; log entry 32), the model's choice. -/
def Obligations.InstructionWritesOwnFlags : Prop :=
  ∀ (s t : State) (i : Instr), exec i s = .next t →
    OtherPairsKept s t ∧ (writesZ i = false → (t.flags.active s.mode).z = s.zFlag) ∧
    (writesC i = false → (t.flags.active s.mode).c = s.cFlag)

/-- 10_state.md R22, R36, R37, R38; 20_memory.md R67: outside the pc, data and flags, an instruction changes the stack
only if it is CALL, RET or RETI, the mode only if it is RETI, the run state only if it is STOP or WAIT, a control
register only if it writes its address, and never the device, the program, the environment's schedule or the reset
count. R22 and R67 are derived by the spec. The model's choices: that a control register holds the byte last written
(log entry 8) and that the parameters of a device are fixed (log entry 3). -/
def Obligations.InstructionKeepsTheRest : Prop :=
  ∀ (s t : State) (i : Instr), exec i s = .next t →
    ((∀ abc, i ≠ .call abc) → i ≠ .ret → i ≠ .reti → t.stack = s.stack) ∧
    (i ≠ .reti → t.mode = s.mode) ∧
    (i ≠ .stop → i ≠ .wait → t.run = s.run) ∧
    (∀ c, (∀ a, writtenAddress s i = some a → s.place a ≠ .device (.control c)) → t.control.get c = s.control.get c) ∧
    t.device = s.device ∧ t.rom = s.rom ∧ t.inputs = s.inputs ∧ t.epoch = s.epoch

/-- 20_memory.md R61, R56: an instruction reads its operand once and tells the environment of nothing but that read and of
its one write. The model's choices: that reads are logged and free answers counted (log entries 11, 35); that every form,
INC and DEC among them, reads its operand once and before it writes, which R61 and 00_scope.md R8 derive and the source does
not state (log entry 34); and that SET and RES read and write the whole byte once, the spec's decision D28 (log entry 33).
On a peripheral register a part could show other events. -/
def Obligations.InstructionTrafficIsItsAccesses : Prop :=
  ∀ (s t : State) (i : Instr), exec i s = .next t →
    (t.draws = match operandAddress s i with
      | some a => (afterRead s a).draws
      | none => s.draws) ∧
    (t.events = (match operandAddress s i with
      | some a => (afterRead s a).events
      | none => s.events) ∨
    ∃ a v, writtenAddress s i = some a ∧ t.events = .write a v :: (match operandAddress s i with
      | some a => (afterRead s a).events
      | none => s.events))

/-- 10_state.md R25: every instruction that is no transfer moves the pc on by its length. That the sum wraps modulo 4096 is
the spec's decision D2 (log entry 27), no statement of the source. -/
def Obligations.PcMovesByLength : Prop :=
  ∀ (s t : State) (i : Instr), isTransfer i = false → exec i s = .next t →
    t.pc = s.pc + BitVec.ofNat 12 (encode i).length

/-! ### Data space -/

/-- 10_state.md R20, 20_memory.md R54, R56: the registers are data-space locations on every device; reading one has no
side effect and returns its content; writing one changes it alone. -/
def Obligations.RegistersAreDataLocations : Prop :=
  ∀ (s : State) (v : Byte),
    [dataValue s 0xFF#8, dataValue s 0x80#8, dataValue s 0x81#8, dataValue s 0x82#8, dataValue s 0x83#8] =
      [s.regs.a, s.regs.x, s.regs.y, s.regs.v, s.regs.w] ∧
    (∀ a ∈ [0xFF#8, 0x80#8, 0x81#8, 0x82#8, 0x83#8], afterRead s a = s) ∧
    writeData s 0xFF#8 v = { s with regs := { s.regs with a := v } } ∧
    writeData s 0x80#8 v = { s with regs := { s.regs with x := v } } ∧
    writeData s 0x81#8 v = { s with regs := { s.regs with y := v } } ∧
    writeData s 0x82#8 v = { s with regs := { s.regs with v := v } } ∧
    writeData s 0x83#8 v = { s with regs := { s.regs with w := v } }

/-- 20_memory.md R55: a write to a core register or to RAM puts the byte there, and no write changes the byte that
another address shows. (A write to a control register can change what other addresses show, 10_state.md R38, and is
left out.) That a write to the ROM window, to a reserved or to an unimplemented address changes no byte is treatment
U6, U7 (log entries 12, 13), the model's choice. -/
def Obligations.WriteChangesOneByte : Prop :=
  ∀ (s : State) (a v : Byte),
    ((∃ r, s.place a = .core r) ∨ s.place a = .device .ram → storedByte (writeData s a v) a = some v) ∧
    (¬ IsControlAddress s a → ∀ b, b ≠ a → storedByte (writeData s a v) b = storedByte s b)

/-- 20_memory.md R64: on core registers and RAM, a read returns the value of the latest write, without side effect.
That accesses go in program order is the spec's decision D14 (log entry 40). -/
def Obligations.ReadReturnsLatestWrite : Prop :=
  ∀ (s : State) (a v : Byte),
    ((∃ r, s.place a = .core r) ∨ s.place a = .device .ram) →
      dataValue (writeData s a v) a = v ∧ afterRead (writeData s a v) a = writeData s a v

/-- 20_memory.md R56, R54 and 93_implementation_defined.md U6, U10 (log entries 8, 11, 12, 35): a peripheral or control
register answers a read with a free value and tells the environment; a reserved or unimplemented address answers with a
free value; a write to a peripheral is an output event, one to a control register also keeps the byte; a write to the
ROM window, to a reserved or to an unimplemented address is ignored (U6, U7; log entries 12, 13). That the environment
answers is the spec's decision D15. -/
def Obligations.EnvironmentAnswersOutsideAccesses : Prop :=
  ∀ (s : State) (a v : Byte),
    ((∃ p, s.place a = .device (.peripheral p)) ∨ IsControlAddress s a →
      dataValue s a = Config.freeByte s.draws a ∧
      afterRead s a = { s with events := .read a :: s.events, draws := s.draws + 1 }) ∧
    (s.place a = .device .reserved ∨ s.place a = .device .notImplemented →
      dataValue s a = Config.freeByte s.draws a ∧ afterRead s a = { s with draws := s.draws + 1 }) ∧
    ((∃ p, s.place a = .device (.peripheral p)) → writeData s a v = { s with events := .write a v :: s.events }) ∧
    (∀ c, s.place a = .device (.control c) →
      writeData s a v = { s with control := s.control.set c v, events := .write a v :: s.events }) ∧
    (s.place a = .romWindow ∨ s.place a = .device .reserved ∨ s.place a = .device .notImplemented →
      writeData s a v = s)

/-- 20_memory.md R50, R53, R54 and 00_scope.md R4: 40h-7Fh is the ROM window on every device, and a read of it returns,
without side effect, the program byte at `RomWindow(state, a)`. That address is the parameter which the spec leaves open
(D16): what the first row of the device's table that applies says, and where none applies the default
`DRWR*64 + (a - 40h)`, which is general knowledge of the family (log entry 15). That the bytes which the control registers
hold now count, however lately written, is the model's choice (log entry 38). -/
def Obligations.WindowShowsProgramBytes : Prop :=
  ∀ (s : State) (a w : Byte), 0x40 ≤ a.toNat → a.toNat ≤ 0x7F →
    s.place a = .romWindow ∧
    (fetchByte s (windowAddress s a) = some w → dataValue s a = w ∧ afterRead s a = s) ∧
    (∀ (l m : List WindowRow) (r : WindowRow), s.device.romWindow = l ++ r :: m →
      (∀ q ∈ l, windowRowApplies s.control a q = false) → r.addr = a →
      (∀ p ∈ r.control, s.control.get p.1 = p.2) → windowAddress s a = r.target) ∧
    ((∀ r ∈ s.device.romWindow, windowRowApplies s.control a r = false) →
      windowAddress s a = BitVec.ofNat 12 (64 * s.control.drwr.toNat + (a.toNat - 0x40)))

/-- 20_memory.md R51: addresses 800h-0FFFh show the same bytes whatever the program ROM bank register holds. What the
register selects below 800h is the parameter D18 (log entry 17). -/
def Obligations.UpperProgramHalfIsStatic : Prop :=
  ∀ (s : State) (v : Byte) (a : PAddr), 0x800 ≤ a.toNat →
    fetchByte { s with control := { s.control with romBank := v } } a = fetchByte s a

/-! ### Stack -/

/-- 10_state.md R28 to R30: as many addresses as cells are free can be pushed, and they come back last in, first out. -/
def Obligations.StackIsLastInFirstOut : Prop :=
  ∀ (o : StackOverflow) (k : Stack) (vs : List PAddr), k.level + vs.length ≤ 6 →
    ∃ k' k'', pushAll o k vs = some k' ∧ k'.level = k.level + vs.length ∧
      popTimes k' vs.length = some (vs.reverse, k'') ∧ k''.level = k.level

/-- 10_state.md R29: of more than six nested pushes the latest are lost, and returns go to the values stacked first. Which
values that leaves, for each `STACK_OVERFLOW`, is the parameter the spec leaves open (D7; log entry 4). -/
def Obligations.OverfullStackKeepsFirstValues : Prop :=
  ∀ (k : Stack) (vs : List PAddr) (v : PAddr), k.level = 0 → 6 ≤ vs.length →
    pushAll .fault k (vs ++ [v]) = none ∧
    (∃ k' k'', pushAll .dropNew k (vs ++ [v]) = some k' ∧ popTimes k' 6 = some ((vs.take 6).reverse, k'')) ∧
    (∃ k' k'', pushAll .overwriteTop k (vs ++ [v]) = some k' ∧ popTimes k' 6 = some (v :: (vs.take 5).reverse, k''))

/-! ### Interrupts -/

/-- 60_exceptions.md R238, R232: what an interrupt entry saves and changes, with the push of 10_state.md R29: while a cell is
free, and, on a full stack, by the device's `STACK_OVERFLOW`, which the spec leaves open (D7; log entry 4). Everything else is
as it was: that no flag bit is copied or cleared is the spec's decision D23 (log entry 32). The logged acknowledge is the
model's own (D27; log entry 35). -/
def Obligations.InterruptEntryEffect : Prop :=
  ∀ (s t : State) (n : Request),
    t = { s with
      mode := if requestNumber n = 0 then (if s.mode = .normal then .nmiFromNormal else .nmiFromInt) else .int
      pc := if requestNumber n = 0 then 0xFFC#12 else BitVec.ofNat 12 (0xFF8 - 2 * requestNumber n)
      run := .running
      events := .acknowledge n :: s.events } →
    (s.stack.level < 6 → takeInterrupt n s = .next { t with
      stack := { l1 := s.pc, l2 := s.stack.l1, l3 := s.stack.l2, l4 := s.stack.l3, l5 := s.stack.l4, l6 := s.stack.l5,
                 level := s.stack.level + 1 } }) ∧
    (6 ≤ s.stack.level → s.device.stackOverflow = .fault → takeInterrupt n s = .fault .stackOverflow) ∧
    (6 ≤ s.stack.level → s.device.stackOverflow = .dropNew → takeInterrupt n s = .next t) ∧
    (6 ≤ s.stack.level → s.device.stackOverflow = .overwriteTop →
      takeInterrupt n s = .next { t with stack := { s.stack with l1 := s.pc } })

/-- 60_exceptions.md R234, R242, R243 with R251: when a request is acceptable. The model's choices, by the spec's
decisions and open parameters: the two enables come from the environment (D19, D26; log entry 20), an NMI in NMI mode
waits (D22; log entry 22), a stopped core sees requests from external sources only (D25; log entry 23). -/
def Obligations.AcceptanceFollowsModeAndEnables : Prop :=
  ∀ (s : State) (n : Request), accepts s n = true ↔
    n ∈ (presented s).pending ∧ (s.run = .stopped → n ∈ s.device.external) ∧
    (if n = .nmi then (s.mode = .normal ∨ s.mode = .int) ∧ (presented s).nmiEnabled = true
     else s.mode = .normal ∧ (presented s).intEnabled = true)

/-- 60_exceptions.md R235 (the NMI's rank is the spec's decision D24; log entry 22): the lowest-numbered acceptable
request is chosen, and one is chosen whenever there is one. R236 is derived by the spec. -/
def Obligations.LowestNumberIsChosen : Prop :=
  ∀ (s : State) (n : Request), chosen s = some n ↔
    accepts s n = true ∧ ∀ m, accepts s m = true → requestNumber n ≤ requestNumber m

/-- 60_exceptions.md R239, R240, R252: after an interrupt entry, a RETI in any state that has the mode of the entry,
its stacked addresses, and the flag pair that was active before it, resumes the interrupted code: the pc, the mode, the
active flag pair and the stacked addresses are those of the moment the request was accepted, and the RETI changes no
register, no RAM and no flag bit. That the entry and the RETI copy and clear no flag pair is the spec's decision D23
(log entry 32). R239 and R252 are derived by the spec, the latter from R35, which holds D23. -/
def Obligations.RetiAfterEntryResumes : Prop :=
  ∀ (s t u : State) (n : Request), s.stack.level < 6 → isUnmasked s n = true → takeInterrupt n s = .next t →
    u.mode = t.mode → u.stack.level = t.stack.level → stackedAddresses u.stack = stackedAddresses t.stack →
    u.flags.active s.mode = s.flags.active s.mode →
    t.flags = s.flags ∧ t.regs = s.regs ∧ t.ram = s.ram ∧
    ∃ w, exec .reti u = .next w ∧ w.pc = s.pc ∧ w.mode = s.mode ∧ w.zFlag = s.zFlag ∧ w.cFlag = s.cFlag ∧
      w.flags = u.flags ∧ w.regs = u.regs ∧ w.ram = u.ram ∧ w.stack.level = s.stack.level ∧
      stackedAddresses w.stack = stackedAddresses s.stack ∧
      (u.stack = t.stack → [w.stack.l1, w.stack.l2, w.stack.l3, w.stack.l4, w.stack.l5] =
        [s.stack.l1, s.stack.l2, s.stack.l3, s.stack.l4, s.stack.l5])

/-- 60_exceptions.md R242, R245; 10_state.md R36: only reset, an interrupt entry and RETI change the mode, and so the
masks and the active flag pair. -/
def Obligations.ModeChangesOnlyByEntryResetReti : Prop :=
  ∀ s t : State, step s = .next t → t.mode ≠ s.mode →
    stepSort s = .reset ∨ (∃ n, stepSort s = .interrupt n) ∨ fetchInstr s = .ok .reti

/-- 60_exceptions.md R250, R251 (the spec's decision D25; log entry 24): an accepted request ends a WAIT or a STOP: the
core runs at the vector, with the address of the next instruction stacked while a cell is free. On a full stack the push
goes by the device's `STACK_OVERFLOW` (10_state.md R29; D7, log entry 4). -/
def Obligations.AcceptedRequestWakesCore : Prop :=
  ∀ (s : State) (n : Request), s.run ≠ .running → (presented s).reset = false → chosen s = some n →
    (CanPush s → ∃ t, step s = .next t ∧ t.run = .running ∧ t.pc = vector n ∧
      (s.stack.level < 6 → t.stack.l1 = s.pc ∧ t.stack.level = s.stack.level + 1) ∧
      (6 ≤ s.stack.level → s.device.stackOverflow = .dropNew → t.stack = s.stack) ∧
      (6 ≤ s.stack.level → s.device.stackOverflow = .overwriteTop → t.stack = { s.stack with l1 := s.pc })) ∧
    (6 ≤ s.stack.level → s.device.stackOverflow = .fault → step s = .fault .stackOverflow)

/-- 60_exceptions.md R251 (log entry 23): while the core is stopped, requests from no external source leave it stopped.
The spec's decision D25 (log entries 23, 24) says both that such requests are not seen and that the core then stays as
it is. -/
def Obligations.StoppedCoreIgnoresInternalRequests : Prop :=
  ∀ s : State, s.run = .stopped → (presented s).reset = false →
    (∀ n ∈ (presented s).pending, n ∉ s.device.external) → step s = .next (pastBoundary s)

/-! ### Reset and invariants -/

/-- 70_reset_and_hazards.md R270: what the reset input does to the core; the device, the program and the environment
are no state of the core. That the stack level is 0 is the spec's decision D13, which it derives from the RETI page,
and that the core runs is derived as well (R270, R42; log entry 39). That a reset leaves the event log and the schedule as they are is the model's choice (log
entry 10). -/
def Obligations.ResetInputEffect : Prop :=
  ∀ s : State, (resetInput s).pc = 0xFFE#12 ∧ (resetInput s).mode = .nmiFromNormal ∧ (resetInput s).stack.level = 0 ∧
    (resetInput s).run = .running ∧ (resetInput s).device = s.device ∧ (resetInput s).rom = s.rom ∧
    (resetInput s).inputs = s.inputs ∧ (resetInput s).events = s.events

/-- 10_state.md R42: the reset state has the values that the spec gives. The source states those of the pc, the mode
and the masks. That the stack level is 0 (the spec's decision D13) and that the core runs are inferences that R42 marks
as derived (log entry 39). -/
def Obligations.ResetStateValues : Prop :=
  State.reset.pc = 0xFFE#12 ∧ State.reset.mode = .nmiFromNormal ∧ State.reset.stack.level = 0 ∧
    State.reset.run = .running ∧ State.reset.mode.interruptMask = true ∧ State.reset.mode.nmiMask = true

/-- 10_state.md R28, R42, 20_memory.md R54: the invariant holds right after reset. That the stack level is 0 is the
spec's decision D13 (log entry 39), and that no RAM byte is listed is the model's choice (log entry 9). -/
def Obligations.ResetStateMeetsInvariant : Prop := Inv State.reset

/-- 10_state.md R28, R29, 20_memory.md R54, R55: every step keeps the invariant: canonical memories, RAM bytes only
where the device has RAM, and a stack level of 0 to 6. What a push on a full stack leaves is the open parameter D7 (log
entry 4); the level stays 6 for each of its values. The canonical form is the model's own. -/
def Obligations.StepKeepsInvariant : Prop := ∀ s t : State, Inv s → step s = .next t → Inv t

/-- 20_memory.md R67, R51: no step changes the program or the parameters of the device. R67 is derived by the spec.
That a device's parameters are fixed is the model's choice (log entry 3). -/
def Obligations.StepKeepsProgramAndDevice : Prop :=
  ∀ s t : State, step s = .next t → t.rom = s.rom ∧ t.device = s.device
end

