-- ==== Sys2Proof/Laws/Memory.lean ====
section
/-! SUPPORT. The laws of a memory: a read after a write, and the canonical form. -/

namespace Sys2Proof.Machine

@[simp] theorem memory_read_nil (k : Nat) : Memory.read [] k = none := rfl

theorem memory_read_cons (j k : Nat) (w : Byte) (m : Memory) :
    Memory.read ((j, w) :: m) k = if j = k then some w else Memory.read m k := rfl

@[simp] theorem memory_read_write_same (m : Memory) (k : Nat) (v : Byte) : (m.write k v).read k = some v := by
  induction m with
  | nil => simp [Memory.write, Memory.read]
  | cons c m ih =>
    obtain ⟨j, w⟩ := c
    simp only [Memory.write]
    split
    · simp [Memory.read]
    · split
      · simp [Memory.read]
      · rename_i h
        simp [Memory.read, Ne.symm h, ih]

theorem memory_read_write_other (m : Memory) {k k' : Nat} (v : Byte) (h : k' ≠ k) :
    (m.write k v).read k' = m.read k' := by
  induction m with
  | nil => simp [Memory.write, Memory.read, h.symm]
  | cons c m ih =>
    obtain ⟨j, w⟩ := c
    simp only [Memory.write]
    split
    · simp [Memory.read, h.symm]
    · split
      · rename_i h2
        subst h2
        simp [Memory.read, h.symm]
      · simp [Memory.read, ih]

/-- Once for all: what a read after a write gives. -/
theorem memory_read_write (m : Memory) (k k' : Nat) (v : Byte) :
    (m.write k v).read k' = if k' = k then some v else m.read k' := by
  split
  · rename_i h
    simp [h]
  · rename_i h
    exact memory_read_write_other m v h

/-- Every pair of a memory after a write is the written one or was there before. -/
theorem mem_memory_write {m : Memory} {k : Nat} {v : Byte} {c : Host.Cell} (h : c ∈ m.write k v) :
    c = (k, v) ∨ c ∈ m := by
  induction m with
  | nil => simpa [Memory.write] using h
  | cons d m ih =>
    obtain ⟨j, w⟩ := d
    simp only [Memory.write] at h
    split at h
    · simpa using h
    · split at h
      · simp only [List.mem_cons] at h ⊢
        exact h.imp id Or.inr
      · simp only [List.mem_cons] at h ⊢
        rcases h with h | h
        · exact .inr (.inl h)
        · exact (ih h).imp id Or.inr

/-- A write keeps the canonical form. -/
theorem memory_write_wf {m : Memory} (h : Memory.wf m) (k : Nat) (v : Byte) : Memory.wf (m.write k v) := by
  induction m with
  | nil => simp [Memory.write, Memory.wf]
  | cons c m ih =>
    obtain ⟨j, w⟩ := c
    obtain ⟨hj, hm⟩ := List.pairwise_cons.1 h
    simp only [Memory.write]
    split
    · rename_i hk
      refine List.pairwise_cons.2 ⟨fun d hd => ?_, h⟩
      rcases List.mem_cons.1 hd with rfl | hd
      · exact hk
      · exact lt_trans hk (hj d hd)
    · split
      · rename_i hk
        subst hk
        exact List.pairwise_cons.2 ⟨hj, hm⟩
      · refine List.pairwise_cons.2 ⟨fun d hd => ?_, ih hm⟩
        rcases mem_memory_write hd with rfl | hd
        · show j < k
          omega
        · exact hj d hd

theorem memory_wf_nil : Memory.wf [] := List.Pairwise.nil

/-- In canonical form, a read finds exactly the pairs listed. -/
theorem memory_read_eq_some {m : Memory} (h : Memory.wf m) (k : Nat) (v : Byte) :
    m.read k = some v ↔ (k, v) ∈ m := by
  induction m with
  | nil => simp [Memory.read]
  | cons c m ih =>
    obtain ⟨j, w⟩ := c
    obtain ⟨hj, hm⟩ := List.pairwise_cons.1 h
    simp only [Memory.read]
    split
    · rename_i hk
      subst hk
      constructor
      · intro hv
        simp_all
      · intro hv
        rcases List.mem_cons.1 hv with hv | hv
        · simp_all
        · exact absurd (hj _ hv) (lt_irrefl _)
    · rename_i hk
      rw [ih hm]
      simp [Ne.symm hk]

/-- Two memories in canonical form that read the same are the same data. -/
theorem memory_ext {m n : Memory} (hm : Memory.wf m) (hn : Memory.wf n) (h : ∀ k, m.read k = n.read k) : m = n := by
  refine List.Perm.eq_of_pairwise (fun p q _ _ h1 h2 => absurd (lt_trans h1 h2) (lt_irrefl _)) hm hn ?_
  refine (List.perm_ext_iff_of_nodup ?_ ?_).2 fun c => ?_
  · exact hm.imp fun {a b} (hab : a.1 < b.1) (e : a = b) => absurd (e ▸ hab) (lt_irrefl _)
  · exact hn.imp fun {a b} (hab : a.1 < b.1) (e : a = b) => absurd (e ▸ hab) (lt_irrefl _)
  · obtain ⟨k, v⟩ := c
    rw [← memory_read_eq_some hm, ← memory_read_eq_some hn, h]

end Sys2Proof.Machine
end

