-- ==== Sys2Proof/Laws/State.lean ====
section
/-! SUPPORT. One lemma per field per update of State, so that no proof unfolds a record update. -/

namespace Sys2Proof.Machine

variable (s : State)

@[simp] theorem setRegs_device (g : Regs) : (s.setRegs g).device = s.device := rfl
@[simp] theorem setRegs_regs (g : Regs) : (s.setRegs g).regs = g := rfl
@[simp] theorem setRegs_pc (g : Regs) : (s.setRegs g).pc = s.pc := rfl
@[simp] theorem setRegs_stack (g : Regs) : (s.setRegs g).stack = s.stack := rfl
@[simp] theorem setRegs_flags (g : Regs) : (s.setRegs g).flags = s.flags := rfl
@[simp] theorem setRegs_mode (g : Regs) : (s.setRegs g).mode = s.mode := rfl
@[simp] theorem setRegs_run (g : Regs) : (s.setRegs g).run = s.run := rfl
@[simp] theorem setRegs_ram (g : Regs) : (s.setRegs g).ram = s.ram := rfl
@[simp] theorem setRegs_control (g : Regs) : (s.setRegs g).control = s.control := rfl
@[simp] theorem setRegs_rom (g : Regs) : (s.setRegs g).rom = s.rom := rfl
@[simp] theorem setRegs_inputs (g : Regs) : (s.setRegs g).inputs = s.inputs := rfl
@[simp] theorem setRegs_events (g : Regs) : (s.setRegs g).events = s.events := rfl
@[simp] theorem setRegs_draws (g : Regs) : (s.setRegs g).draws = s.draws := rfl
@[simp] theorem setRegs_epoch (g : Regs) : (s.setRegs g).epoch = s.epoch := rfl

@[simp] theorem setPc_device (t : PAddr) : (s.setPc t).device = s.device := rfl
@[simp] theorem setPc_regs (t : PAddr) : (s.setPc t).regs = s.regs := rfl
@[simp] theorem setPc_pc (t : PAddr) : (s.setPc t).pc = t := rfl
@[simp] theorem setPc_stack (t : PAddr) : (s.setPc t).stack = s.stack := rfl
@[simp] theorem setPc_flags (t : PAddr) : (s.setPc t).flags = s.flags := rfl
@[simp] theorem setPc_mode (t : PAddr) : (s.setPc t).mode = s.mode := rfl
@[simp] theorem setPc_run (t : PAddr) : (s.setPc t).run = s.run := rfl
@[simp] theorem setPc_ram (t : PAddr) : (s.setPc t).ram = s.ram := rfl
@[simp] theorem setPc_control (t : PAddr) : (s.setPc t).control = s.control := rfl
@[simp] theorem setPc_rom (t : PAddr) : (s.setPc t).rom = s.rom := rfl
@[simp] theorem setPc_inputs (t : PAddr) : (s.setPc t).inputs = s.inputs := rfl
@[simp] theorem setPc_events (t : PAddr) : (s.setPc t).events = s.events := rfl
@[simp] theorem setPc_draws (t : PAddr) : (s.setPc t).draws = s.draws := rfl
@[simp] theorem setPc_epoch (t : PAddr) : (s.setPc t).epoch = s.epoch := rfl

@[simp] theorem setStack_device (k : Stack) : (s.setStack k).device = s.device := rfl
@[simp] theorem setStack_regs (k : Stack) : (s.setStack k).regs = s.regs := rfl
@[simp] theorem setStack_pc (k : Stack) : (s.setStack k).pc = s.pc := rfl
@[simp] theorem setStack_stack (k : Stack) : (s.setStack k).stack = k := rfl
@[simp] theorem setStack_flags (k : Stack) : (s.setStack k).flags = s.flags := rfl
@[simp] theorem setStack_mode (k : Stack) : (s.setStack k).mode = s.mode := rfl
@[simp] theorem setStack_run (k : Stack) : (s.setStack k).run = s.run := rfl
@[simp] theorem setStack_ram (k : Stack) : (s.setStack k).ram = s.ram := rfl
@[simp] theorem setStack_control (k : Stack) : (s.setStack k).control = s.control := rfl
@[simp] theorem setStack_rom (k : Stack) : (s.setStack k).rom = s.rom := rfl
@[simp] theorem setStack_inputs (k : Stack) : (s.setStack k).inputs = s.inputs := rfl
@[simp] theorem setStack_events (k : Stack) : (s.setStack k).events = s.events := rfl
@[simp] theorem setStack_draws (k : Stack) : (s.setStack k).draws = s.draws := rfl
@[simp] theorem setStack_epoch (k : Stack) : (s.setStack k).epoch = s.epoch := rfl

@[simp] theorem setFlags_device (f : Flags) : (s.setFlags f).device = s.device := rfl
@[simp] theorem setFlags_regs (f : Flags) : (s.setFlags f).regs = s.regs := rfl
@[simp] theorem setFlags_pc (f : Flags) : (s.setFlags f).pc = s.pc := rfl
@[simp] theorem setFlags_stack (f : Flags) : (s.setFlags f).stack = s.stack := rfl
@[simp] theorem setFlags_flags (f : Flags) : (s.setFlags f).flags = f := rfl
@[simp] theorem setFlags_mode (f : Flags) : (s.setFlags f).mode = s.mode := rfl
@[simp] theorem setFlags_run (f : Flags) : (s.setFlags f).run = s.run := rfl
@[simp] theorem setFlags_ram (f : Flags) : (s.setFlags f).ram = s.ram := rfl
@[simp] theorem setFlags_control (f : Flags) : (s.setFlags f).control = s.control := rfl
@[simp] theorem setFlags_rom (f : Flags) : (s.setFlags f).rom = s.rom := rfl
@[simp] theorem setFlags_inputs (f : Flags) : (s.setFlags f).inputs = s.inputs := rfl
@[simp] theorem setFlags_events (f : Flags) : (s.setFlags f).events = s.events := rfl
@[simp] theorem setFlags_draws (f : Flags) : (s.setFlags f).draws = s.draws := rfl
@[simp] theorem setFlags_epoch (f : Flags) : (s.setFlags f).epoch = s.epoch := rfl

@[simp] theorem setMode_device (m : Mode) : (s.setMode m).device = s.device := rfl
@[simp] theorem setMode_regs (m : Mode) : (s.setMode m).regs = s.regs := rfl
@[simp] theorem setMode_pc (m : Mode) : (s.setMode m).pc = s.pc := rfl
@[simp] theorem setMode_stack (m : Mode) : (s.setMode m).stack = s.stack := rfl
@[simp] theorem setMode_flags (m : Mode) : (s.setMode m).flags = s.flags := rfl
@[simp] theorem setMode_mode (m : Mode) : (s.setMode m).mode = m := rfl
@[simp] theorem setMode_run (m : Mode) : (s.setMode m).run = s.run := rfl
@[simp] theorem setMode_ram (m : Mode) : (s.setMode m).ram = s.ram := rfl
@[simp] theorem setMode_control (m : Mode) : (s.setMode m).control = s.control := rfl
@[simp] theorem setMode_rom (m : Mode) : (s.setMode m).rom = s.rom := rfl
@[simp] theorem setMode_inputs (m : Mode) : (s.setMode m).inputs = s.inputs := rfl
@[simp] theorem setMode_events (m : Mode) : (s.setMode m).events = s.events := rfl
@[simp] theorem setMode_draws (m : Mode) : (s.setMode m).draws = s.draws := rfl
@[simp] theorem setMode_epoch (m : Mode) : (s.setMode m).epoch = s.epoch := rfl

@[simp] theorem setRun_device (r : Run) : (s.setRun r).device = s.device := rfl
@[simp] theorem setRun_regs (r : Run) : (s.setRun r).regs = s.regs := rfl
@[simp] theorem setRun_pc (r : Run) : (s.setRun r).pc = s.pc := rfl
@[simp] theorem setRun_stack (r : Run) : (s.setRun r).stack = s.stack := rfl
@[simp] theorem setRun_flags (r : Run) : (s.setRun r).flags = s.flags := rfl
@[simp] theorem setRun_mode (r : Run) : (s.setRun r).mode = s.mode := rfl
@[simp] theorem setRun_run (r : Run) : (s.setRun r).run = r := rfl
@[simp] theorem setRun_ram (r : Run) : (s.setRun r).ram = s.ram := rfl
@[simp] theorem setRun_control (r : Run) : (s.setRun r).control = s.control := rfl
@[simp] theorem setRun_rom (r : Run) : (s.setRun r).rom = s.rom := rfl
@[simp] theorem setRun_inputs (r : Run) : (s.setRun r).inputs = s.inputs := rfl
@[simp] theorem setRun_events (r : Run) : (s.setRun r).events = s.events := rfl
@[simp] theorem setRun_draws (r : Run) : (s.setRun r).draws = s.draws := rfl
@[simp] theorem setRun_epoch (r : Run) : (s.setRun r).epoch = s.epoch := rfl

@[simp] theorem setRam_device (m : Memory) : (s.setRam m).device = s.device := rfl
@[simp] theorem setRam_regs (m : Memory) : (s.setRam m).regs = s.regs := rfl
@[simp] theorem setRam_pc (m : Memory) : (s.setRam m).pc = s.pc := rfl
@[simp] theorem setRam_stack (m : Memory) : (s.setRam m).stack = s.stack := rfl
@[simp] theorem setRam_flags (m : Memory) : (s.setRam m).flags = s.flags := rfl
@[simp] theorem setRam_mode (m : Memory) : (s.setRam m).mode = s.mode := rfl
@[simp] theorem setRam_run (m : Memory) : (s.setRam m).run = s.run := rfl
@[simp] theorem setRam_ram (m : Memory) : (s.setRam m).ram = m := rfl
@[simp] theorem setRam_control (m : Memory) : (s.setRam m).control = s.control := rfl
@[simp] theorem setRam_rom (m : Memory) : (s.setRam m).rom = s.rom := rfl
@[simp] theorem setRam_inputs (m : Memory) : (s.setRam m).inputs = s.inputs := rfl
@[simp] theorem setRam_events (m : Memory) : (s.setRam m).events = s.events := rfl
@[simp] theorem setRam_draws (m : Memory) : (s.setRam m).draws = s.draws := rfl
@[simp] theorem setRam_epoch (m : Memory) : (s.setRam m).epoch = s.epoch := rfl

@[simp] theorem setControl_device (k : Control) : (s.setControl k).device = s.device := rfl
@[simp] theorem setControl_regs (k : Control) : (s.setControl k).regs = s.regs := rfl
@[simp] theorem setControl_pc (k : Control) : (s.setControl k).pc = s.pc := rfl
@[simp] theorem setControl_stack (k : Control) : (s.setControl k).stack = s.stack := rfl
@[simp] theorem setControl_flags (k : Control) : (s.setControl k).flags = s.flags := rfl
@[simp] theorem setControl_mode (k : Control) : (s.setControl k).mode = s.mode := rfl
@[simp] theorem setControl_run (k : Control) : (s.setControl k).run = s.run := rfl
@[simp] theorem setControl_ram (k : Control) : (s.setControl k).ram = s.ram := rfl
@[simp] theorem setControl_control (k : Control) : (s.setControl k).control = k := rfl
@[simp] theorem setControl_rom (k : Control) : (s.setControl k).rom = s.rom := rfl
@[simp] theorem setControl_inputs (k : Control) : (s.setControl k).inputs = s.inputs := rfl
@[simp] theorem setControl_events (k : Control) : (s.setControl k).events = s.events := rfl
@[simp] theorem setControl_draws (k : Control) : (s.setControl k).draws = s.draws := rfl
@[simp] theorem setControl_epoch (k : Control) : (s.setControl k).epoch = s.epoch := rfl

@[simp] theorem setRom_device (m : Memory) : (s.setRom m).device = s.device := rfl
@[simp] theorem setRom_regs (m : Memory) : (s.setRom m).regs = s.regs := rfl
@[simp] theorem setRom_pc (m : Memory) : (s.setRom m).pc = s.pc := rfl
@[simp] theorem setRom_stack (m : Memory) : (s.setRom m).stack = s.stack := rfl
@[simp] theorem setRom_flags (m : Memory) : (s.setRom m).flags = s.flags := rfl
@[simp] theorem setRom_mode (m : Memory) : (s.setRom m).mode = s.mode := rfl
@[simp] theorem setRom_run (m : Memory) : (s.setRom m).run = s.run := rfl
@[simp] theorem setRom_ram (m : Memory) : (s.setRom m).ram = s.ram := rfl
@[simp] theorem setRom_control (m : Memory) : (s.setRom m).control = s.control := rfl
@[simp] theorem setRom_rom (m : Memory) : (s.setRom m).rom = m := rfl
@[simp] theorem setRom_inputs (m : Memory) : (s.setRom m).inputs = s.inputs := rfl
@[simp] theorem setRom_events (m : Memory) : (s.setRom m).events = s.events := rfl
@[simp] theorem setRom_draws (m : Memory) : (s.setRom m).draws = s.draws := rfl
@[simp] theorem setRom_epoch (m : Memory) : (s.setRom m).epoch = s.epoch := rfl

@[simp] theorem setInputs_device (bs : List Boundary) : (s.setInputs bs).device = s.device := rfl
@[simp] theorem setInputs_regs (bs : List Boundary) : (s.setInputs bs).regs = s.regs := rfl
@[simp] theorem setInputs_pc (bs : List Boundary) : (s.setInputs bs).pc = s.pc := rfl
@[simp] theorem setInputs_stack (bs : List Boundary) : (s.setInputs bs).stack = s.stack := rfl
@[simp] theorem setInputs_flags (bs : List Boundary) : (s.setInputs bs).flags = s.flags := rfl
@[simp] theorem setInputs_mode (bs : List Boundary) : (s.setInputs bs).mode = s.mode := rfl
@[simp] theorem setInputs_run (bs : List Boundary) : (s.setInputs bs).run = s.run := rfl
@[simp] theorem setInputs_ram (bs : List Boundary) : (s.setInputs bs).ram = s.ram := rfl
@[simp] theorem setInputs_control (bs : List Boundary) : (s.setInputs bs).control = s.control := rfl
@[simp] theorem setInputs_rom (bs : List Boundary) : (s.setInputs bs).rom = s.rom := rfl
@[simp] theorem setInputs_inputs (bs : List Boundary) : (s.setInputs bs).inputs = bs := rfl
@[simp] theorem setInputs_events (bs : List Boundary) : (s.setInputs bs).events = s.events := rfl
@[simp] theorem setInputs_draws (bs : List Boundary) : (s.setInputs bs).draws = s.draws := rfl
@[simp] theorem setInputs_epoch (bs : List Boundary) : (s.setInputs bs).epoch = s.epoch := rfl

@[simp] theorem emit_device (e : Event) : (s.emit e).device = s.device := rfl
@[simp] theorem emit_regs (e : Event) : (s.emit e).regs = s.regs := rfl
@[simp] theorem emit_pc (e : Event) : (s.emit e).pc = s.pc := rfl
@[simp] theorem emit_stack (e : Event) : (s.emit e).stack = s.stack := rfl
@[simp] theorem emit_flags (e : Event) : (s.emit e).flags = s.flags := rfl
@[simp] theorem emit_mode (e : Event) : (s.emit e).mode = s.mode := rfl
@[simp] theorem emit_run (e : Event) : (s.emit e).run = s.run := rfl
@[simp] theorem emit_ram (e : Event) : (s.emit e).ram = s.ram := rfl
@[simp] theorem emit_control (e : Event) : (s.emit e).control = s.control := rfl
@[simp] theorem emit_rom (e : Event) : (s.emit e).rom = s.rom := rfl
@[simp] theorem emit_inputs (e : Event) : (s.emit e).inputs = s.inputs := rfl
@[simp] theorem emit_events (e : Event) : (s.emit e).events = e :: s.events := rfl
@[simp] theorem emit_draws (e : Event) : (s.emit e).draws = s.draws := rfl
@[simp] theorem emit_epoch (e : Event) : (s.emit e).epoch = s.epoch := rfl

@[simp] theorem countDraw_device : (s.countDraw).device = s.device := rfl
@[simp] theorem countDraw_regs : (s.countDraw).regs = s.regs := rfl
@[simp] theorem countDraw_pc : (s.countDraw).pc = s.pc := rfl
@[simp] theorem countDraw_stack : (s.countDraw).stack = s.stack := rfl
@[simp] theorem countDraw_flags : (s.countDraw).flags = s.flags := rfl
@[simp] theorem countDraw_mode : (s.countDraw).mode = s.mode := rfl
@[simp] theorem countDraw_run : (s.countDraw).run = s.run := rfl
@[simp] theorem countDraw_ram : (s.countDraw).ram = s.ram := rfl
@[simp] theorem countDraw_control : (s.countDraw).control = s.control := rfl
@[simp] theorem countDraw_rom : (s.countDraw).rom = s.rom := rfl
@[simp] theorem countDraw_inputs : (s.countDraw).inputs = s.inputs := rfl
@[simp] theorem countDraw_events : (s.countDraw).events = s.events := rfl
@[simp] theorem countDraw_draws : (s.countDraw).draws = s.draws + 1 := rfl
@[simp] theorem countDraw_epoch : (s.countDraw).epoch = s.epoch := rfl

@[simp] theorem countReset_device : (s.countReset).device = s.device := rfl
@[simp] theorem countReset_regs : (s.countReset).regs = s.regs := rfl
@[simp] theorem countReset_pc : (s.countReset).pc = s.pc := rfl
@[simp] theorem countReset_stack : (s.countReset).stack = s.stack := rfl
@[simp] theorem countReset_flags : (s.countReset).flags = s.flags := rfl
@[simp] theorem countReset_mode : (s.countReset).mode = s.mode := rfl
@[simp] theorem countReset_run : (s.countReset).run = s.run := rfl
@[simp] theorem countReset_ram : (s.countReset).ram = s.ram := rfl
@[simp] theorem countReset_control : (s.countReset).control = s.control := rfl
@[simp] theorem countReset_rom : (s.countReset).rom = s.rom := rfl
@[simp] theorem countReset_inputs : (s.countReset).inputs = s.inputs := rfl
@[simp] theorem countReset_events : (s.countReset).events = s.events := rfl
@[simp] theorem countReset_draws : (s.countReset).draws = s.draws := rfl
@[simp] theorem countReset_epoch : (s.countReset).epoch = s.epoch + 1 := rfl

@[simp] theorem setReg_device (r : Reg) (v : Byte) : (s.setReg r v).device = s.device := rfl
@[simp] theorem setReg_regs (r : Reg) (v : Byte) : (s.setReg r v).regs = s.regs.set r v := rfl
@[simp] theorem setReg_pc (r : Reg) (v : Byte) : (s.setReg r v).pc = s.pc := rfl
@[simp] theorem setReg_stack (r : Reg) (v : Byte) : (s.setReg r v).stack = s.stack := rfl
@[simp] theorem setReg_flags (r : Reg) (v : Byte) : (s.setReg r v).flags = s.flags := rfl
@[simp] theorem setReg_mode (r : Reg) (v : Byte) : (s.setReg r v).mode = s.mode := rfl
@[simp] theorem setReg_run (r : Reg) (v : Byte) : (s.setReg r v).run = s.run := rfl
@[simp] theorem setReg_ram (r : Reg) (v : Byte) : (s.setReg r v).ram = s.ram := rfl
@[simp] theorem setReg_control (r : Reg) (v : Byte) : (s.setReg r v).control = s.control := rfl
@[simp] theorem setReg_rom (r : Reg) (v : Byte) : (s.setReg r v).rom = s.rom := rfl
@[simp] theorem setReg_inputs (r : Reg) (v : Byte) : (s.setReg r v).inputs = s.inputs := rfl
@[simp] theorem setReg_events (r : Reg) (v : Byte) : (s.setReg r v).events = s.events := rfl
@[simp] theorem setReg_draws (r : Reg) (v : Byte) : (s.setReg r v).draws = s.draws := rfl
@[simp] theorem setReg_epoch (r : Reg) (v : Byte) : (s.setReg r v).epoch = s.epoch := rfl

@[simp] theorem advance_device (n : PAddr) : (s.advance n).device = s.device := rfl
@[simp] theorem advance_regs (n : PAddr) : (s.advance n).regs = s.regs := rfl
@[simp] theorem advance_pc (n : PAddr) : (s.advance n).pc = s.pc + n := rfl
@[simp] theorem advance_stack (n : PAddr) : (s.advance n).stack = s.stack := rfl
@[simp] theorem advance_flags (n : PAddr) : (s.advance n).flags = s.flags := rfl
@[simp] theorem advance_mode (n : PAddr) : (s.advance n).mode = s.mode := rfl
@[simp] theorem advance_run (n : PAddr) : (s.advance n).run = s.run := rfl
@[simp] theorem advance_ram (n : PAddr) : (s.advance n).ram = s.ram := rfl
@[simp] theorem advance_control (n : PAddr) : (s.advance n).control = s.control := rfl
@[simp] theorem advance_rom (n : PAddr) : (s.advance n).rom = s.rom := rfl
@[simp] theorem advance_inputs (n : PAddr) : (s.advance n).inputs = s.inputs := rfl
@[simp] theorem advance_events (n : PAddr) : (s.advance n).events = s.events := rfl
@[simp] theorem advance_draws (n : PAddr) : (s.advance n).draws = s.draws := rfl
@[simp] theorem advance_epoch (n : PAddr) : (s.advance n).epoch = s.epoch := rfl

@[simp] theorem setZC_device (z c : Bool) : (s.setZC z c).device = s.device := rfl
@[simp] theorem setZC_regs (z c : Bool) : (s.setZC z c).regs = s.regs := rfl
@[simp] theorem setZC_pc (z c : Bool) : (s.setZC z c).pc = s.pc := rfl
@[simp] theorem setZC_stack (z c : Bool) : (s.setZC z c).stack = s.stack := rfl
@[simp] theorem setZC_flags (z c : Bool) : (s.setZC z c).flags = s.flags.setActive s.mode ⟨z, c⟩ := rfl
@[simp] theorem setZC_mode (z c : Bool) : (s.setZC z c).mode = s.mode := rfl
@[simp] theorem setZC_run (z c : Bool) : (s.setZC z c).run = s.run := rfl
@[simp] theorem setZC_ram (z c : Bool) : (s.setZC z c).ram = s.ram := rfl
@[simp] theorem setZC_control (z c : Bool) : (s.setZC z c).control = s.control := rfl
@[simp] theorem setZC_rom (z c : Bool) : (s.setZC z c).rom = s.rom := rfl
@[simp] theorem setZC_inputs (z c : Bool) : (s.setZC z c).inputs = s.inputs := rfl
@[simp] theorem setZC_events (z c : Bool) : (s.setZC z c).events = s.events := rfl
@[simp] theorem setZC_draws (z c : Bool) : (s.setZC z c).draws = s.draws := rfl
@[simp] theorem setZC_epoch (z c : Bool) : (s.setZC z c).epoch = s.epoch := rfl

@[simp] theorem setZ_device (z : Bool) : (s.setZ z).device = s.device := rfl
@[simp] theorem setZ_regs (z : Bool) : (s.setZ z).regs = s.regs := rfl
@[simp] theorem setZ_pc (z : Bool) : (s.setZ z).pc = s.pc := rfl
@[simp] theorem setZ_stack (z : Bool) : (s.setZ z).stack = s.stack := rfl
@[simp] theorem setZ_flags (z : Bool) : (s.setZ z).flags = s.flags.setActive s.mode ⟨z, s.cFlag⟩ := rfl
@[simp] theorem setZ_mode (z : Bool) : (s.setZ z).mode = s.mode := rfl
@[simp] theorem setZ_run (z : Bool) : (s.setZ z).run = s.run := rfl
@[simp] theorem setZ_ram (z : Bool) : (s.setZ z).ram = s.ram := rfl
@[simp] theorem setZ_control (z : Bool) : (s.setZ z).control = s.control := rfl
@[simp] theorem setZ_rom (z : Bool) : (s.setZ z).rom = s.rom := rfl
@[simp] theorem setZ_inputs (z : Bool) : (s.setZ z).inputs = s.inputs := rfl
@[simp] theorem setZ_events (z : Bool) : (s.setZ z).events = s.events := rfl
@[simp] theorem setZ_draws (z : Bool) : (s.setZ z).draws = s.draws := rfl
@[simp] theorem setZ_epoch (z : Bool) : (s.setZ z).epoch = s.epoch := rfl

@[simp] theorem setC_device (c : Bool) : (s.setC c).device = s.device := rfl
@[simp] theorem setC_regs (c : Bool) : (s.setC c).regs = s.regs := rfl
@[simp] theorem setC_pc (c : Bool) : (s.setC c).pc = s.pc := rfl
@[simp] theorem setC_stack (c : Bool) : (s.setC c).stack = s.stack := rfl
@[simp] theorem setC_flags (c : Bool) : (s.setC c).flags = s.flags.setActive s.mode ⟨s.zFlag, c⟩ := rfl
@[simp] theorem setC_mode (c : Bool) : (s.setC c).mode = s.mode := rfl
@[simp] theorem setC_run (c : Bool) : (s.setC c).run = s.run := rfl
@[simp] theorem setC_ram (c : Bool) : (s.setC c).ram = s.ram := rfl
@[simp] theorem setC_control (c : Bool) : (s.setC c).control = s.control := rfl
@[simp] theorem setC_rom (c : Bool) : (s.setC c).rom = s.rom := rfl
@[simp] theorem setC_inputs (c : Bool) : (s.setC c).inputs = s.inputs := rfl
@[simp] theorem setC_events (c : Bool) : (s.setC c).events = s.events := rfl
@[simp] theorem setC_draws (c : Bool) : (s.setC c).draws = s.draws := rfl
@[simp] theorem setC_epoch (c : Bool) : (s.setC c).epoch = s.epoch := rfl

@[simp] theorem pastBoundary_device : (pastBoundary s).device = s.device := rfl
@[simp] theorem pastBoundary_regs : (pastBoundary s).regs = s.regs := rfl
@[simp] theorem pastBoundary_pc : (pastBoundary s).pc = s.pc := rfl
@[simp] theorem pastBoundary_stack : (pastBoundary s).stack = s.stack := rfl
@[simp] theorem pastBoundary_flags : (pastBoundary s).flags = s.flags := rfl
@[simp] theorem pastBoundary_mode : (pastBoundary s).mode = s.mode := rfl
@[simp] theorem pastBoundary_run : (pastBoundary s).run = s.run := rfl
@[simp] theorem pastBoundary_ram : (pastBoundary s).ram = s.ram := rfl
@[simp] theorem pastBoundary_control : (pastBoundary s).control = s.control := rfl
@[simp] theorem pastBoundary_rom : (pastBoundary s).rom = s.rom := rfl
@[simp] theorem pastBoundary_inputs : (pastBoundary s).inputs = s.inputs.tail := rfl
@[simp] theorem pastBoundary_events : (pastBoundary s).events = s.events := rfl
@[simp] theorem pastBoundary_draws : (pastBoundary s).draws = s.draws := rfl
@[simp] theorem pastBoundary_epoch : (pastBoundary s).epoch = s.epoch := rfl

@[simp] theorem resetInput_device : (resetInput s).device = s.device := rfl
@[simp] theorem resetInput_regs : (resetInput s).regs = regsAtReset (s.epoch + 1) := rfl
@[simp] theorem resetInput_pc : (resetInput s).pc = 0xFFE#12 := rfl
@[simp] theorem resetInput_stack : (resetInput s).stack = stackAtReset (s.epoch + 1) := rfl
@[simp] theorem resetInput_flags : (resetInput s).flags = flagsAtReset (s.epoch + 1) := rfl
@[simp] theorem resetInput_mode : (resetInput s).mode = .nmiFromNormal := rfl
@[simp] theorem resetInput_run : (resetInput s).run = .running := rfl
@[simp] theorem resetInput_ram : (resetInput s).ram = [] := rfl
@[simp] theorem resetInput_control : (resetInput s).control = controlAtReset (s.epoch + 1) := rfl
@[simp] theorem resetInput_rom : (resetInput s).rom = s.rom := rfl
@[simp] theorem resetInput_inputs : (resetInput s).inputs = s.inputs := rfl
@[simp] theorem resetInput_events : (resetInput s).events = s.events := rfl
@[simp] theorem resetInput_draws : (resetInput s).draws = s.draws := rfl
@[simp] theorem resetInput_epoch : (resetInput s).epoch = s.epoch + 1 := rfl

end Sys2Proof.Machine
end

