-- ==== Sys2Proof/Laws/Ops.lean ====
section
/-! SUPPORT. What each shared operation over registers, data space, stack and flags can do, said once. -/

namespace Sys2Proof.Machine

/-! ### Registers -/

@[simp] theorem regs_get_set_same (g : Regs) (r : Reg) (v : Byte) : (g.set r v).get r = v := by cases r <;> rfl

theorem regs_get_set_other (g : Regs) {r q : Reg} (v : Byte) (h : q ≠ r) : (g.set r v).get q = g.get q := by
  cases r <;> cases q <;> first | rfl | exact absurd rfl h

@[simp] theorem regs_set_get (g : Regs) (r : Reg) : g.set r (g.get r) = g := by cases r <;> rfl

@[simp] theorem control_get_set_same (k : Control) (c : ControlReg) (v : Byte) : (k.set c v).get c = v := by
  cases c <;> rfl

theorem control_get_set_other (k : Control) {c e : ControlReg} (v : Byte) (h : e ≠ c) :
    (k.set c v).get e = k.get e := by
  cases c <;> cases e <;> first | rfl | exact absurd rfl h

@[simp] theorem regAt_regAddr (r : Reg) : regAt (regAddr r) = some r := by cases r <;> decide

/-- An address is a core register's exactly when the core register at it is that register. -/
theorem regAt_eq_some {a : Byte} {r : Reg} : regAt a = some r ↔ a = regAddr r := by
  constructor
  · intro h
    unfold regAt at h
    split at h
    · injection h with h; subst h; assumption
    · split at h
      · injection h with h; subst h; assumption
      · split at h
        · injection h with h; subst h; assumption
        · split at h
          · injection h with h; subst h; assumption
          · split at h
            · injection h with h; subst h; assumption
            · exact absurd h (by simp)
  · rintro rfl
    simp

theorem regAddr_injective {q r : Reg} (h : regAddr q = regAddr r) : q = r := by
  have := regAt_regAddr q
  rw [h, regAt_regAddr] at this
  exact (Option.some.inj this).symm

/-! ### What an address is -/

@[simp] theorem placeOf_regAddr (d : Device) (n : Nat) (r : Reg) : placeOf d n (regAddr r) = .core r := by simp [placeOf]

theorem placeOf_eq_core {d : Device} {n : Nat} {a : Byte} {r : Reg} : placeOf d n a = .core r ↔ a = regAddr r := by
  rw [← regAt_eq_some]
  unfold placeOf
  cases regAt a with
  | some q => simp
  | none =>
    simp only [reduceCtorEq, iff_false]
    split
    · simp
    · split <;> simp

/-- 40h-7Fh is the data ROM window on every device, whatever bank is selected (20_memory.md R50). -/
theorem placeOf_window (d : Device) (n : Nat) {a : Byte} (h1 : 0x40 ≤ a.toNat) (h2 : a.toNat ≤ 0x7F) :
    placeOf d n a = .romWindow := by
  have hr : regAt a = none := by
    revert a
    decide
  have hp : isPaged a = false := by simp [isPaged, h1]
  simp [placeOf, hr, hp, Nat.lt_succ_of_le h2]

/-- Outside 00h-3Fh the selected bank makes no difference (20_memory.md R50). -/
theorem placeOf_unpaged (d : Device) (n m : Nat) {a : Byte} (h : isPaged a = false) : placeOf d n a = placeOf d m a := by
  simp [placeOf, h]

@[simp] theorem place_regAddr (s : State) (r : Reg) : s.place (regAddr r) = .core r := placeOf_regAddr s.device s.bank r

/-- A row of `RomWindow` applies exactly if it is for the address and the control registers hold the bytes it gives. -/
theorem windowRowApplies_eq_true {k : Control} {a : Byte} {r : WindowRow} :
    windowRowApplies k a r = true ↔ r.addr = a ∧ ∀ p ∈ r.control, k.get p.1 = p.2 := by
  simp [windowRowApplies]

/-- All that a window address can be: of a row of the device's table that applies, or, where none does, the default. -/
theorem windowAddress_cases (s : State) (a : Byte) :
    (∃ r ∈ s.device.romWindow, windowRowApplies s.control a r = true ∧ windowAddress s a = r.target) ∨
      ((∀ r ∈ s.device.romWindow, windowRowApplies s.control a r = false) ∧
        windowAddress s a = defaultWindowAddress s.control.drwr a) := by
  unfold windowAddress
  split
  next r h => exact .inl ⟨r, List.mem_of_find?_eq_some h, by simpa using List.find?_some h, rfl⟩
  next h => exact .inr ⟨by simpa using h, rfl⟩

/-- The window address depends on the device and the control bytes alone. -/
theorem windowAddress_congr {s t : State} (hd : t.device = s.device) (hc : t.control = s.control) (a : Byte) :
    windowAddress t a = windowAddress s a := by
  simp [windowAddress, hd, hc]

/-- The selected bank depends on the device and the control bytes alone. -/
theorem bank_congr {s t : State} (hd : t.device = s.device) (hc : t.control = s.control) : t.bank = s.bank := by
  simp [State.bank, hd, hc]

/-- What an address is depends on the device and the control bytes alone. -/
theorem place_congr {s t : State} (hd : t.device = s.device) (hc : t.control = s.control) (a : Byte) :
    t.place a = s.place a := by
  simp [State.place, hd, bank_congr hd hc]

/-- The RAM cell behind an address depends on the device and the control bytes alone. -/
theorem ramCell_congr {s t : State} (hd : t.device = s.device) (hc : t.control = s.control) (a : Byte)
    (k : DataKind) : ramCell t a k = ramCell s a k := by
  cases k <;> simp [ramCell, bank_congr hd hc]

/-- All that a RAM cell can be: of an address of 00h-3Fh in the selected bank, or of a fixed address. -/
theorem ramCell_eq_some {s : State} {a : Byte} {k : DataKind} {j : Nat} (h : ramCell s a k = some j) :
    k = .ram ∧ ((isPaged a = true ∧ j = 256 * (s.bank + 1) + a.toNat) ∨ (isPaged a = false ∧ j = a.toNat)) := by
  cases k <;> simp only [ramCell, reduceCtorEq, Option.some.injEq] at h
  refine ⟨rfl, ?_⟩
  subst h
  cases isPaged a <;> simp

/-! ### Reading data -/

@[simp] theorem storedByte_regAddr (s : State) (r : Reg) : storedByte s (regAddr r) = some (s.regs.get r) := by
  simp [storedByte]

@[simp] theorem dataValue_regAddr (s : State) (r : Reg) : dataValue s (regAddr r) = s.regs.get r := by
  simp [dataValue]

@[simp] theorem afterRead_regAddr (s : State) (r : Reg) : afterRead s (regAddr r) = s := by simp [afterRead]

/-- A stored location is read without side effect. -/
theorem dataValue_of_stored {s : State} {a v : Byte} (h : storedByte s a = some v) :
    dataValue s a = v ∧ afterRead s a = s := by
  simp [dataValue, afterRead, h]

/-- All that a read can do to the state. -/
theorem afterRead_cases (s : State) (a : Byte) :
    afterRead s a = s ∨ afterRead s a = s.countDraw ∨ afterRead s a = (s.emit (.read a)).countDraw := by
  unfold afterRead
  split
  · exact .inl rfl
  · split
    · exact .inr (.inr rfl)
    · exact .inr (.inr rfl)
    · exact .inr (.inl rfl)

@[simp] theorem afterRead_device (s : State) (a : Byte) : (afterRead s a).device = s.device := by
  rcases afterRead_cases s a with h | h | h <;> rw [h] <;> rfl

@[simp] theorem afterRead_regs (s : State) (a : Byte) : (afterRead s a).regs = s.regs := by
  rcases afterRead_cases s a with h | h | h <;> rw [h] <;> rfl

@[simp] theorem afterRead_pc (s : State) (a : Byte) : (afterRead s a).pc = s.pc := by
  rcases afterRead_cases s a with h | h | h <;> rw [h] <;> rfl

@[simp] theorem afterRead_stack (s : State) (a : Byte) : (afterRead s a).stack = s.stack := by
  rcases afterRead_cases s a with h | h | h <;> rw [h] <;> rfl

@[simp] theorem afterRead_flags (s : State) (a : Byte) : (afterRead s a).flags = s.flags := by
  rcases afterRead_cases s a with h | h | h <;> rw [h] <;> rfl

@[simp] theorem afterRead_mode (s : State) (a : Byte) : (afterRead s a).mode = s.mode := by
  rcases afterRead_cases s a with h | h | h <;> rw [h] <;> rfl

@[simp] theorem afterRead_run (s : State) (a : Byte) : (afterRead s a).run = s.run := by
  rcases afterRead_cases s a with h | h | h <;> rw [h] <;> rfl

@[simp] theorem afterRead_ram (s : State) (a : Byte) : (afterRead s a).ram = s.ram := by
  rcases afterRead_cases s a with h | h | h <;> rw [h] <;> rfl

@[simp] theorem afterRead_control (s : State) (a : Byte) : (afterRead s a).control = s.control := by
  rcases afterRead_cases s a with h | h | h <;> rw [h] <;> rfl

@[simp] theorem afterRead_rom (s : State) (a : Byte) : (afterRead s a).rom = s.rom := by
  rcases afterRead_cases s a with h | h | h <;> rw [h] <;> rfl

@[simp] theorem afterRead_inputs (s : State) (a : Byte) : (afterRead s a).inputs = s.inputs := by
  rcases afterRead_cases s a with h | h | h <;> rw [h] <;> rfl

@[simp] theorem afterRead_epoch (s : State) (a : Byte) : (afterRead s a).epoch = s.epoch := by
  rcases afterRead_cases s a with h | h | h <;> rw [h] <;> rfl

/-! ### Writing data -/

@[simp] theorem writeData_regAddr (s : State) (r : Reg) (v : Byte) : writeData s (regAddr r) v = s.setReg r v := by
  simp [writeData]

/-- All that a write can do to the state. -/
theorem writeData_cases (s : State) (a v : Byte) :
    (∃ r, s.place a = .core r ∧ writeData s a v = s.setReg r v) ∨
    (∃ p, s.place a = .device (.peripheral p) ∧ writeData s a v = s.emit (.write a v)) ∨
    (∃ c, s.place a = .device (.control c) ∧
      writeData s a v = (s.setControl (s.control.set c v)).emit (.write a v)) ∨
    (∃ k j, s.place a = .device k ∧ ramCell s a k = some j ∧ writeData s a v = s.setRam (s.ram.write j v)) ∨
    ((∀ c, s.place a ≠ .device (.control c)) ∧ (∀ k, s.place a = .device k → ramCell s a k = none) ∧
      writeData s a v = s) := by
  unfold writeData
  split
  · rename_i r h
    exact .inl ⟨r, h, rfl⟩
  · rename_i p h
    exact .inr (.inl ⟨p, h, rfl⟩)
  · rename_i c h
    exact .inr (.inr (.inl ⟨c, h, rfl⟩))
  · rename_i h
    exact .inr (.inr (.inr (.inr ⟨by simp [h], by simp [h], rfl⟩)))
  · rename_i k hp hc h
    split
    · rename_i j hj
      exact .inr (.inr (.inr (.inl ⟨k, j, h, hj, rfl⟩)))
    · rename_i hj
      refine .inr (.inr (.inr (.inr ⟨fun c hk => ?_, fun q hq => ?_, rfl⟩)))
      · rw [h] at hk
        exact hc c (Place.device.inj hk)
      · rw [h] at hq
        exact Place.device.inj hq ▸ hj

@[simp] theorem writeData_device (s : State) (a v : Byte) : (writeData s a v).device = s.device := by
  rcases writeData_cases s a v with ⟨_, _, h⟩ | ⟨_, _, h⟩ | ⟨_, _, h⟩ | ⟨_, _, _, _, h⟩ | ⟨_, _, h⟩ <;>
    rw [h] <;> rfl

@[simp] theorem writeData_pc (s : State) (a v : Byte) : (writeData s a v).pc = s.pc := by
  rcases writeData_cases s a v with ⟨_, _, h⟩ | ⟨_, _, h⟩ | ⟨_, _, h⟩ | ⟨_, _, _, _, h⟩ | ⟨_, _, h⟩ <;>
    rw [h] <;> rfl

@[simp] theorem writeData_stack (s : State) (a v : Byte) : (writeData s a v).stack = s.stack := by
  rcases writeData_cases s a v with ⟨_, _, h⟩ | ⟨_, _, h⟩ | ⟨_, _, h⟩ | ⟨_, _, _, _, h⟩ | ⟨_, _, h⟩ <;>
    rw [h] <;> rfl

@[simp] theorem writeData_flags (s : State) (a v : Byte) : (writeData s a v).flags = s.flags := by
  rcases writeData_cases s a v with ⟨_, _, h⟩ | ⟨_, _, h⟩ | ⟨_, _, h⟩ | ⟨_, _, _, _, h⟩ | ⟨_, _, h⟩ <;>
    rw [h] <;> rfl

@[simp] theorem writeData_mode (s : State) (a v : Byte) : (writeData s a v).mode = s.mode := by
  rcases writeData_cases s a v with ⟨_, _, h⟩ | ⟨_, _, h⟩ | ⟨_, _, h⟩ | ⟨_, _, _, _, h⟩ | ⟨_, _, h⟩ <;>
    rw [h] <;> rfl

@[simp] theorem writeData_run (s : State) (a v : Byte) : (writeData s a v).run = s.run := by
  rcases writeData_cases s a v with ⟨_, _, h⟩ | ⟨_, _, h⟩ | ⟨_, _, h⟩ | ⟨_, _, _, _, h⟩ | ⟨_, _, h⟩ <;>
    rw [h] <;> rfl

@[simp] theorem writeData_rom (s : State) (a v : Byte) : (writeData s a v).rom = s.rom := by
  rcases writeData_cases s a v with ⟨_, _, h⟩ | ⟨_, _, h⟩ | ⟨_, _, h⟩ | ⟨_, _, _, _, h⟩ | ⟨_, _, h⟩ <;>
    rw [h] <;> rfl

@[simp] theorem writeData_inputs (s : State) (a v : Byte) : (writeData s a v).inputs = s.inputs := by
  rcases writeData_cases s a v with ⟨_, _, h⟩ | ⟨_, _, h⟩ | ⟨_, _, h⟩ | ⟨_, _, _, _, h⟩ | ⟨_, _, h⟩ <;>
    rw [h] <;> rfl

@[simp] theorem writeData_draws (s : State) (a v : Byte) : (writeData s a v).draws = s.draws := by
  rcases writeData_cases s a v with ⟨_, _, h⟩ | ⟨_, _, h⟩ | ⟨_, _, h⟩ | ⟨_, _, _, _, h⟩ | ⟨_, _, h⟩ <;>
    rw [h] <;> rfl

@[simp] theorem writeData_epoch (s : State) (a v : Byte) : (writeData s a v).epoch = s.epoch := by
  rcases writeData_cases s a v with ⟨_, _, h⟩ | ⟨_, _, h⟩ | ⟨_, _, h⟩ | ⟨_, _, _, _, h⟩ | ⟨_, _, h⟩ <;>
    rw [h] <;> rfl

/-! ### Flags -/

@[simp] theorem active_setActive (f : Flags) (m : Mode) (p : FlagPair) : (f.setActive m p).active m = p := by
  cases m <;> rfl

@[simp] theorem setActive_active (f : Flags) (m : Mode) : f.setActive m (f.active m) = f := by cases m <;> rfl

@[simp] theorem setActive_setActive (f : Flags) (m : Mode) (p q : FlagPair) :
    (f.setActive m p).setActive m q = f.setActive m q := by
  cases m <;> rfl

@[simp] theorem setZC_zFlag (s : State) (z c : Bool) : (s.setZC z c).zFlag = z := by simp [State.zFlag]

@[simp] theorem setZC_cFlag (s : State) (z c : Bool) : (s.setZC z c).cFlag = c := by simp [State.cFlag]

/-- The flags read depend on the flag pairs and the mode alone. -/
theorem flagBits_congr {s t : State} (hf : t.flags = s.flags) (hm : t.mode = s.mode) :
    t.zFlag = s.zFlag ∧ t.cFlag = s.cFlag := by
  simp [State.zFlag, State.cFlag, hf, hm]

@[simp] theorem isZero_eq (v : Byte) : isZero v = decide (v = 0#8) := rfl

/-! ### Operands -/

@[simp] theorem effectiveAddress_short (s : State) (r : ShortReg) :
    effectiveAddress s (.short r) = regAddr (shortReg r) := rfl

@[simp] theorem effectiveAddress_indirect (s : State) (p : Pointer) :
    effectiveAddress s (.indirect p) = s.regs.get (pointerReg p) := rfl

@[simp] theorem effectiveAddress_direct (s : State) (rr : Byte) : effectiveAddress s (.direct rr) = rr := rfl

@[simp] theorem formLength_short (r : ShortReg) : formLength (.short r) = 1#12 := rfl

@[simp] theorem formLength_indirect (p : Pointer) : formLength (.indirect p) = 1#12 := rfl

@[simp] theorem formLength_direct (rr : Byte) : formLength (.direct rr) = 2#12 := rfl

/-! ### Stack -/

/-- All that a push can do. -/
theorem pushed_cases {o : StackOverflow} {k k' : Stack} {v : PAddr} (h : pushed o k v = some k') :
    (k.level < 6 ∧ k' = ⟨v, k.l1, k.l2, k.l3, k.l4, k.l5, k.level + 1⟩) ∨
    (6 ≤ k.level ∧ o = .dropNew ∧ k' = k) ∨ (6 ≤ k.level ∧ o = .overwriteTop ∧ k' = { k with l1 := v }) := by
  unfold pushed at h
  split at h
  · rename_i hl
    exact .inl ⟨hl, (Option.some.inj h).symm⟩
  · rename_i hl
    cases o with
    | fault => exact absurd h (by simp)
    | dropNew => exact .inr (.inl ⟨Nat.le_of_not_lt hl, rfl, (Option.some.inj h).symm⟩)
    | overwriteTop => exact .inr (.inr ⟨Nat.le_of_not_lt hl, rfl, (Option.some.inj h).symm⟩)

theorem pushed_level_le {o : StackOverflow} {k k' : Stack} {v : PAddr} (hk : k.level ≤ 6)
    (h : pushed o k v = some k') : k'.level ≤ 6 := by
  rcases pushed_cases h with ⟨hl, rfl⟩ | ⟨_, _, rfl⟩ | ⟨_, _, rfl⟩
  · exact hl
  · exact hk
  · exact hk

/-- A push fails only as the fault. -/
theorem pushed_eq_none {o : StackOverflow} {k : Stack} {v : PAddr} :
    pushed o k v = none ↔ 6 ≤ k.level ∧ o = .fault := by
  unfold pushed
  split
  · simp; omega
  · cases o <;> simp_all

/-- All that a pop can do. -/
theorem popped_cases {k k' : Stack} {v : PAddr} (h : popped k = some (v, k')) :
    0 < k.level ∧ v = k.l1 ∧ k' = ⟨k.l2, k.l3, k.l4, k.l5, k.l6, k.l6, k.level - 1⟩ := by
  unfold popped at h
  split at h
  · exact absurd h (by simp)
  · rename_i hl
    simp only [Option.some.injEq, Prod.mk.injEq] at h
    exact ⟨Nat.pos_of_ne_zero hl, h.1.symm, h.2.symm⟩

/-- All that `pushAndGo` can do. -/
theorem pushAndGo_next {s t : State} {v a : PAddr} (h : pushAndGo s v a = .next t) :
    ∃ k, pushed s.device.stackOverflow s.stack v = some k ∧ t = (s.setStack k).setPc a := by
  unfold pushAndGo at h
  split at h
  · rename_i k hk
    exact ⟨k, hk, (by injection h with h; exact h.symm)⟩
  · exact absurd h (by simp)

/-- All that `popAndReturn` can do. -/
theorem popAndReturn_cases (s : State) :
    (s.stack.level = 0 ∧ popAndReturn s = s.setPc (s.pc + 1#12)) ∨
    (0 < s.stack.level ∧ popAndReturn s =
      (s.setStack ⟨s.stack.l2, s.stack.l3, s.stack.l4, s.stack.l5, s.stack.l6, s.stack.l6, s.stack.level - 1⟩).setPc
        s.stack.l1) := by
  unfold popAndReturn
  split
  · rename_i v k h
    obtain ⟨hl, rfl, rfl⟩ := popped_cases h
    exact .inr ⟨hl, rfl⟩
  · rename_i h
    refine .inl ⟨?_, rfl⟩
    unfold popped at h
    split at h
    · assumption
    · exact absurd h (by simp)

/-- All that an interrupt entry can do. -/
theorem takeInterrupt_next {n : Request} {s t : State} (h : takeInterrupt n s = .next t) :
    ∃ k, pushed s.device.stackOverflow s.stack s.pc = some k ∧
      t = (((((s.setMode (modeOnEntry n s.mode)).setRun .running).emit (.acknowledge n)).setStack k).setPc
        (vector n)) :=
  pushAndGo_next h

end Sys2Proof.Machine
end

