-- ==== Sys2Proof/Laws/Exec.lean ====
section
/-! SUPPORT. Written forms, and what a step can be. -/

namespace Sys2Proof.Machine

/-- A written form does what the instruction it is written for does (30_encoding.md R99). -/
theorem exec_expand (i : Instr) (s : State) : exec i s = exec i.expand s := by cases i <;> rfl

/-- Expanding once is enough. -/
theorem expand_expand (i : Instr) : i.expand.expand = i.expand := by cases i <;> rfl

/-- A written form has the bytes of the instruction it is written for (30_encoding.md R99). -/
theorem encode_expand (i : Instr) : encode i.expand = encode i := by cases i <;> rfl

/-- All that an idle, resetting, interrupting or executing step can be. -/
theorem step_cases (s : State) :
    (stepSort s = .reset ∧ step s = .next (resetInput (pastBoundary s))) ∨
    (∃ n, stepSort s = .interrupt n ∧ step s = takeInterrupt n (pastBoundary s)) ∨
    (∃ i, stepSort s = .execute ∧ fetchInstr (pastBoundary s) = .ok i ∧ step s = exec i (pastBoundary s)) ∨
    (∃ a, stepSort s = .execute ∧ fetchInstr (pastBoundary s) = .error a ∧
      step s = .fault (.fetchUnimplemented a)) ∨
    (stepSort s = .idle ∧ step s = .next (pastBoundary s)) := by
  unfold step
  cases h : stepSort s with
  | reset => exact .inl ⟨rfl, rfl⟩
  | interrupt n => exact .inr (.inl ⟨n, rfl, rfl⟩)
  | idle => exact .inr (.inr (.inr (.inr ⟨rfl, rfl⟩)))
  | execute =>
    cases hf : fetchInstr (pastBoundary s) with
    | ok i => exact .inr (.inr (.inl ⟨i, rfl, rfl, rfl⟩))
    | error a => exact .inr (.inr (.inr (.inl ⟨a, rfl, rfl, rfl⟩)))

/-- Fetching sees program memory, the program ROM bank and the device alone. -/
theorem fetchByte_congr {s t : State} (hd : t.device = s.device) (hc : t.control = s.control) (hr : t.rom = s.rom)
    (a : PAddr) : fetchByte t a = fetchByte s a := by
  simp [fetchByte, romCell, hd, hc, hr]

theorem fetchBytes_congr {s t : State} (hd : t.device = s.device) (hc : t.control = s.control) (hr : t.rom = s.rom)
    (n : Nat) (a : PAddr) : fetchBytes t a n = fetchBytes s a n := by
  induction n generalizing a with
  | zero => rfl
  | succ n ih => simp [fetchBytes, fetchByte_congr hd hc hr, ih]

end Sys2Proof.Machine
end

