-- ==== Sys2Proof/Laws/Frame.lean ====
section
/-! SUPPORT. What one instruction can do, said once: its operand is read, one byte is written, the active flag pair and
the pc change. The statements about frames follow from it. -/

namespace Sys2Proof.Machine

/-- The state once the operand of `i` is read. -/
def operandRead (s : State) (i : Instr) : State :=
  match operandAddress s i with
  | some a => afterRead s a
  | none => s

/-- The state once the operand of `i` is read and byte `v` is written where `i` writes. -/
def resultWritten (s : State) (i : Instr) (v : Byte) : State :=
  match writtenAddress s i with
  | some a => writeData (operandRead s i) a v
  | none => operandRead s i

/-- The instructions that change neither stack nor run state. -/
def isPlain (i : Instr) : Bool :=
  match i with
  | .call _ => false
  | .ret => false
  | .reti => false
  | .stop => false
  | .wait => false
  | _ => true

/-! ### Flags around reads and writes -/

@[simp] theorem afterRead_zFlag (s : State) (a : Byte) : (afterRead s a).zFlag = s.zFlag := by simp [State.zFlag]

@[simp] theorem afterRead_cFlag (s : State) (a : Byte) : (afterRead s a).cFlag = s.cFlag := by simp [State.cFlag]

@[simp] theorem writeData_zFlag (s : State) (a v : Byte) : (writeData s a v).zFlag = s.zFlag := by simp [State.zFlag]

@[simp] theorem writeData_cFlag (s : State) (a v : Byte) : (writeData s a v).cFlag = s.cFlag := by simp [State.cFlag]

/-- Writing back the flags that are there changes nothing. -/
theorem setZC_self (s : State) : s.setZC s.zFlag s.cFlag = s := by
  show { s with flags := s.flags.setActive s.mode (s.flags.active s.mode) } = s
  simp

theorem setZ_eq (s : State) (z : Bool) : s.setZ z = s.setZC z s.cFlag := rfl

theorem setC_eq (s : State) (c : Bool) : s.setC c = s.setZC s.zFlag c := rfl

theorem advance_eq (s : State) (n : PAddr) : s.advance n = s.setPc (s.pc + n) := rfl

theorem setPc_eq (s : State) (a : PAddr) : s.setPc a = (s.setZC s.zFlag s.cFlag).setPc a := by rw [setZC_self]

theorem setReg_a (s : State) (v : Byte) : s.setReg .a v = writeData s 0xFF#8 v := (writeData_regAddr s .a v).symm

/-! ### A write after a read -/

theorem ramCell_afterRead (s : State) (a b : Byte) (k : DataKind) : ramCell (afterRead s a) b k = ramCell s b k :=
  ramCell_congr (afterRead_device s a) (afterRead_control s a) b k

/-- A write after a read leaves the registers, the RAM and the control bytes that the write alone would leave. -/
theorem writeData_afterRead (s : State) (a b v : Byte) :
    (writeData (afterRead s a) b v).regs = (writeData s b v).regs ∧
      (writeData (afterRead s a) b v).ram = (writeData s b v).ram ∧
      (writeData (afterRead s a) b v).control = (writeData s b v).control := by
  have hp : (afterRead s a).place b = s.place b := place_congr (afterRead_device s a) (afterRead_control s a) b
  simp only [writeData, hp, ramCell_afterRead]
  split <;> try simp [State.setReg, State.emit, State.setControl, State.setRam]
  split <;> simp

/-- What a write tells the environment: nothing, or of itself. -/
theorem writeData_events (s : State) (a v : Byte) :
    (writeData s a v).events = s.events ∨ (writeData s a v).events = .write a v :: s.events := by
  rcases writeData_cases s a v with ⟨_, _, h⟩ | ⟨_, _, h⟩ | ⟨_, _, h⟩ | ⟨_, _, _, _, h⟩ | ⟨_, _, h⟩ <;>
    rw [h] <;> first | exact .inl rfl | exact .inr rfl

/-- The stored bytes depend on these fields alone. -/
theorem storedByte_congr {s t : State} (a : Byte) (hd : t.device = s.device) (hr : t.regs = s.regs)
    (hm : t.ram = s.ram) (hc : t.control = s.control) (ho : t.rom = s.rom) (he : t.epoch = s.epoch) :
    storedByte t a = storedByte s a := by
  have hp : t.place a = s.place a := place_congr hd hc a
  have hk : ∀ k, ramCell t a k = ramCell s a k := ramCell_congr hd hc a
  have hb : ∀ k, ramByte t k = ramByte s k := by
    intro k
    simp [ramByte, hm, he]
  have hw : windowAddress t a = windowAddress s a := windowAddress_congr hd hc a
  have hf : ∀ x, fetchByte t x = fetchByte s x := fetchByte_congr hd hc ho
  simp only [storedByte, hp, hk, hw, hf, hr]
  split <;> try rfl
  congr 1
  exact funext hb

/-! ### The shape of an instruction -/

/-- Once for all: the state after a machine instruction that changes neither stack nor run state. -/
theorem exec_shape (s : State) (i : Instr) (hw : WellFormed i = true) (hp : isPlain i = true) :
    ∃ v z c p, exec i s = .next (((resultWritten s i v).setZC z c).setPc p) ∧ (writesZ i = false → z = s.zFlag) ∧
      (writesC i = false → c = s.cFlag) ∧ (isTransfer i = false → p = s.pc + BitVec.ofNat 12 (encode i).length) := by
  cases i <;> first
    | exact Bool.noConfusion (show false = true from hw)
    | exact Bool.noConfusion (show false = true from hp)
    | skip
  all_goals simp only [exec, execJrnz, execJrnc, execJrz, execJrc, execJp, execJrr, execJrs, execRes, execSet,
    execIncReg, execLdAReg, execDecReg, execLdRegA, execLdiDir, execComA, execRlcA, execLdAInd, execLdiA, execLdADir,
    execCpAInd, execCpiA, execCpADir, execAddAInd, execAddiA, execAddADir, execIncInd, execIncDir, execLdIndA,
    execLdDirA, execAndAInd, execAndiA, execAndADir, execSubAInd, execSubiA, execSubADir, execDecInd, execDecDir,
    loadA, storeA, modifyData, aluA, resultToA, resultToFlags, branchOnBit, changeByte, branchIf, setZ_eq, setC_eq,
    advance_eq, setZC_pc, afterRead_cFlag, afterRead_zFlag, writeData_cFlag, afterOperand, operandValue, writeData_pc,
    afterRead_pc, setReg_a]
  case jrnz e =>
    cases h : s.zFlag <;>
      exact ⟨0, _, _, _, congrArg _ (setPc_eq s _), fun _ => h.symm ▸ rfl, fun _ => rfl,
        fun h => Bool.noConfusion (show true = false from h)⟩
  case jrz e =>
    cases h : s.zFlag <;>
      exact ⟨0, _, _, _, congrArg _ (setPc_eq s _), fun _ => h.symm ▸ rfl, fun _ => rfl,
        fun h => Bool.noConfusion (show true = false from h)⟩
  case jrnc e =>
    cases h : s.cFlag <;>
      exact ⟨0, _, _, _, congrArg _ (setPc_eq s _), fun _ => rfl, fun _ => h.symm ▸ rfl,
        fun h => Bool.noConfusion (show true = false from h)⟩
  case jrc e =>
    cases h : s.cFlag <;>
      exact ⟨0, _, _, _, congrArg _ (setPc_eq s _), fun _ => rfl, fun _ => h.symm ▸ rfl,
        fun h => Bool.noConfusion (show true = false from h)⟩
  case jp e =>
    exact ⟨0, _, _, _, congrArg _ (setPc_eq s _), fun _ => rfl, fun _ => rfl,
      fun h => Bool.noConfusion (show true = false from h)⟩
  case res b rr =>
    exact ⟨_, _, _, _, congrArg _ (setPc_eq (writeData (afterRead s rr) rr _) _), fun _ => by simp, fun _ => by simp,
      fun _ => rfl⟩
  case set b rr =>
    exact ⟨_, _, _, _, congrArg _ (setPc_eq (writeData (afterRead s rr) rr _) _), fun _ => by simp, fun _ => by simp,
      fun _ => rfl⟩
  case ldiDir rr v =>
    exact ⟨_, _, _, _, congrArg _ (setPc_eq (writeData s rr _) _), fun _ => by simp, fun _ => by simp, fun _ => rfl⟩
  all_goals first
    | exact ⟨_, _, _, _, rfl, fun _ => rfl, fun _ => rfl, fun _ => rfl⟩
    | exact ⟨_, _, _, _, rfl, fun h => Bool.noConfusion (show true = false from h),
        fun h => Bool.noConfusion (show true = false from h), fun _ => rfl⟩
    | exact ⟨_, _, _, _, rfl, fun h => Bool.noConfusion (show true = false from h), fun _ => rfl, fun _ => rfl⟩
    | exact ⟨0, _, _, _, rfl, fun h => Bool.noConfusion (show true = false from h),
        fun h => Bool.noConfusion (show true = false from h), fun _ => rfl⟩
    | exact ⟨0, _, _, _, rfl, fun _ => rfl, fun h => Bool.noConfusion (show true = false from h),
        fun h => Bool.noConfusion (show true = false from h)⟩

end Sys2Proof.Machine
end

