-- ==== Sys2Proof/Laws/PerInstr.lean ====
section
/-! SUPPORT. One lemma per constructor of Instr: an encoding is as long as its own first byte says (30_encoding.md R80,
R81). The illegal opcodes, which have no length of their own (R95), are one byte here. -/

namespace Sys2Proof.Laws.EncodeLength

/-- The encoding of an instruction has a first byte, and is as long as that byte says. -/
def Statement (i : Instr) : Prop := ∃ op rest, encode i = op :: rest ∧ (encode i).length = instrLength op

theorem jrnz (e : Disp5) : Statement (.jrnz e) := by
  refine ⟨_, _, rfl, ?_⟩
  have h : ∀ e : Disp5, 1 = instrLength (e ++ 0b000#3) := by decide
  exact h e
theorem jrnc (e : Disp5) : Statement (.jrnc e) := by
  refine ⟨_, _, rfl, ?_⟩
  have h : ∀ e : Disp5, 1 = instrLength (e ++ 0b010#3) := by decide
  exact h e
theorem jrz (e : Disp5) : Statement (.jrz e) := by
  refine ⟨_, _, rfl, ?_⟩
  have h : ∀ e : Disp5, 1 = instrLength (e ++ 0b100#3) := by decide
  exact h e
theorem jrc (e : Disp5) : Statement (.jrc e) := by
  refine ⟨_, _, rfl, ?_⟩
  have h : ∀ e : Disp5, 1 = instrLength (e ++ 0b110#3) := by decide
  exact h e
theorem call (abc : PAddr) : Statement (.call abc) := by
  refine ⟨_, _, rfl, ?_⟩
  have h : ∀ n : BitVec 4, 2 = instrLength (n ++ 0b0001#4) := by decide
  exact h _
theorem jp (abc : PAddr) : Statement (.jp abc) := by
  refine ⟨_, _, rfl, ?_⟩
  have h : ∀ n : BitVec 4, 2 = instrLength (n ++ 0b1001#4) := by decide
  exact h _
theorem jrr (b : BitNo) (rr ee : Byte) : Statement (.jrr b rr ee) := by
  refine ⟨_, _, rfl, ?_⟩
  have h : ∀ b : BitNo, 3 = instrLength (rev3 b ++ 0b00011#5) := by decide
  exact h b
theorem jrs (b : BitNo) (rr ee : Byte) : Statement (.jrs b rr ee) := by
  refine ⟨_, _, rfl, ?_⟩
  have h : ∀ b : BitNo, 3 = instrLength (rev3 b ++ 0b10011#5) := by decide
  exact h b
theorem res (b : BitNo) (rr : Byte) : Statement (.res b rr) := by
  refine ⟨_, _, rfl, ?_⟩
  have h : ∀ b : BitNo, 2 = instrLength (rev3 b ++ 0b01011#5) := by decide
  exact h b
theorem set (b : BitNo) (rr : Byte) : Statement (.set b rr) := by
  refine ⟨_, _, rfl, ?_⟩
  have h : ∀ b : BitNo, 2 = instrLength (rev3 b ++ 0b11011#5) := by decide
  exact h b
theorem incReg (r : ShortReg) : Statement (.incReg r) := by
  cases r <;> exact ⟨_, _, rfl, rfl⟩
theorem ldAReg (r : ShortReg) : Statement (.ldAReg r) := by
  cases r <;> exact ⟨_, _, rfl, rfl⟩
theorem decReg (r : ShortReg) : Statement (.decReg r) := by
  cases r <;> exact ⟨_, _, rfl, rfl⟩
theorem ldRegA (r : ShortReg) : Statement (.ldRegA r) := by
  cases r <;> exact ⟨_, _, rfl, rfl⟩
theorem ldiDir (rr nn : Byte) : Statement (.ldiDir rr nn) := ⟨_, _, rfl, rfl⟩
theorem comA : Statement (.comA) := ⟨_, _, rfl, rfl⟩
theorem reti : Statement (.reti) := ⟨_, _, rfl, rfl⟩
theorem stop : Statement (.stop) := ⟨_, _, rfl, rfl⟩
theorem rlcA : Statement (.rlcA) := ⟨_, _, rfl, rfl⟩
theorem ret : Statement (.ret) := ⟨_, _, rfl, rfl⟩
theorem wait : Statement (.wait) := ⟨_, _, rfl, rfl⟩
theorem ldAInd (ptr : Pointer) : Statement (.ldAInd ptr) := by
  cases ptr <;> exact ⟨_, _, rfl, rfl⟩
theorem ldiA (nn : Byte) : Statement (.ldiA nn) := ⟨_, _, rfl, rfl⟩
theorem ldADir (rr : Byte) : Statement (.ldADir rr) := ⟨_, _, rfl, rfl⟩
theorem cpAInd (ptr : Pointer) : Statement (.cpAInd ptr) := by
  cases ptr <;> exact ⟨_, _, rfl, rfl⟩
theorem cpiA (nn : Byte) : Statement (.cpiA nn) := ⟨_, _, rfl, rfl⟩
theorem cpADir (rr : Byte) : Statement (.cpADir rr) := ⟨_, _, rfl, rfl⟩
theorem addAInd (ptr : Pointer) : Statement (.addAInd ptr) := by
  cases ptr <;> exact ⟨_, _, rfl, rfl⟩
theorem addiA (nn : Byte) : Statement (.addiA nn) := ⟨_, _, rfl, rfl⟩
theorem addADir (rr : Byte) : Statement (.addADir rr) := ⟨_, _, rfl, rfl⟩
theorem incInd (ptr : Pointer) : Statement (.incInd ptr) := by
  cases ptr <;> exact ⟨_, _, rfl, rfl⟩
theorem incDir (rr : Byte) : Statement (.incDir rr) := ⟨_, _, rfl, rfl⟩
theorem ldIndA (ptr : Pointer) : Statement (.ldIndA ptr) := by
  cases ptr <;> exact ⟨_, _, rfl, rfl⟩
theorem ldDirA (rr : Byte) : Statement (.ldDirA rr) := ⟨_, _, rfl, rfl⟩
theorem andAInd (ptr : Pointer) : Statement (.andAInd ptr) := by
  cases ptr <;> exact ⟨_, _, rfl, rfl⟩
theorem andiA (nn : Byte) : Statement (.andiA nn) := ⟨_, _, rfl, rfl⟩
theorem andADir (rr : Byte) : Statement (.andADir rr) := ⟨_, _, rfl, rfl⟩
theorem subAInd (ptr : Pointer) : Statement (.subAInd ptr) := by
  cases ptr <;> exact ⟨_, _, rfl, rfl⟩
theorem subiA (nn : Byte) : Statement (.subiA nn) := ⟨_, _, rfl, rfl⟩
theorem subADir (rr : Byte) : Statement (.subADir rr) := ⟨_, _, rfl, rfl⟩
theorem decInd (ptr : Pointer) : Statement (.decInd ptr) := by
  cases ptr <;> exact ⟨_, _, rfl, rfl⟩
theorem decDir (rr : Byte) : Statement (.decDir rr) := ⟨_, _, rfl, rfl⟩
theorem illegal05 : Statement (.illegal05) := ⟨_, _, rfl, rfl⟩
theorem illegal25 : Statement (.illegal25) := ⟨_, _, rfl, rfl⟩
theorem illegal45 : Statement (.illegal45) := ⟨_, _, rfl, rfl⟩
theorem illegal65 : Statement (.illegal65) := ⟨_, _, rfl, rfl⟩
theorem illegal85 : Statement (.illegal85) := ⟨_, _, rfl, rfl⟩
theorem illegalA5 : Statement (.illegalA5) := ⟨_, _, rfl, rfl⟩
theorem illegalC5 : Statement (.illegalC5) := ⟨_, _, rfl, rfl⟩
theorem illegalE5 : Statement (.illegalE5) := ⟨_, _, rfl, rfl⟩
theorem illegal77 : Statement (.illegal77) := ⟨_, _, rfl, rfl⟩
theorem illegal97 : Statement (.illegal97) := ⟨_, _, rfl, rfl⟩
theorem illegalF7 : Statement (.illegalF7) := ⟨_, _, rfl, rfl⟩
theorem illegal8D : Statement (.illegal8D) := ⟨_, _, rfl, rfl⟩
theorem nop : Statement (.nop) := ⟨_, _, rfl, rfl⟩
theorem clrA : Statement (.clrA) := ⟨_, _, rfl, rfl⟩
theorem clrDir (rr : Byte) : Statement (.clrDir rr) := ⟨_, _, rfl, rfl⟩
theorem slaA : Statement (.slaA) := ⟨_, _, rfl, rfl⟩
theorem incA : Statement (.incA) := ⟨_, _, rfl, rfl⟩
theorem decA : Statement (.decA) := ⟨_, _, rfl, rfl⟩
theorem ldAA : Statement (.ldAA) := ⟨_, _, rfl, rfl⟩
theorem addAA : Statement (.addAA) := ⟨_, _, rfl, rfl⟩
theorem addAX : Statement (.addAX) := ⟨_, _, rfl, rfl⟩
theorem addAY : Statement (.addAY) := ⟨_, _, rfl, rfl⟩
theorem addAV : Statement (.addAV) := ⟨_, _, rfl, rfl⟩
theorem addAW : Statement (.addAW) := ⟨_, _, rfl, rfl⟩
theorem andAA : Statement (.andAA) := ⟨_, _, rfl, rfl⟩
theorem andAX : Statement (.andAX) := ⟨_, _, rfl, rfl⟩
theorem andAY : Statement (.andAY) := ⟨_, _, rfl, rfl⟩
theorem andAV : Statement (.andAV) := ⟨_, _, rfl, rfl⟩
theorem andAW : Statement (.andAW) := ⟨_, _, rfl, rfl⟩
theorem cpAA : Statement (.cpAA) := ⟨_, _, rfl, rfl⟩
theorem cpAX : Statement (.cpAX) := ⟨_, _, rfl, rfl⟩
theorem cpAY : Statement (.cpAY) := ⟨_, _, rfl, rfl⟩
theorem cpAV : Statement (.cpAV) := ⟨_, _, rfl, rfl⟩
theorem cpAW : Statement (.cpAW) := ⟨_, _, rfl, rfl⟩
theorem subAA : Statement (.subAA) := ⟨_, _, rfl, rfl⟩
theorem subAX : Statement (.subAX) := ⟨_, _, rfl, rfl⟩
theorem subAY : Statement (.subAY) := ⟨_, _, rfl, rfl⟩
theorem subAV : Statement (.subAV) := ⟨_, _, rfl, rfl⟩
theorem subAW : Statement (.subAW) := ⟨_, _, rfl, rfl⟩
theorem resA (b : BitNo) : Statement (.resA b) := by
  refine ⟨_, _, rfl, ?_⟩
  have h : ∀ b : BitNo, 2 = instrLength (rev3 b ++ 0b01011#5) := by decide
  exact h b
theorem setA (b : BitNo) : Statement (.setA b) := by
  refine ⟨_, _, rfl, ?_⟩
  have h : ∀ b : BitNo, 2 = instrLength (rev3 b ++ 0b11011#5) := by decide
  exact h b
theorem ldiX (nn : Byte) : Statement (.ldiX nn) := ⟨_, _, rfl, rfl⟩
theorem clrX : Statement (.clrX) := ⟨_, _, rfl, rfl⟩
theorem ldiY (nn : Byte) : Statement (.ldiY nn) := ⟨_, _, rfl, rfl⟩
theorem clrY : Statement (.clrY) := ⟨_, _, rfl, rfl⟩
theorem ldiV (nn : Byte) : Statement (.ldiV nn) := ⟨_, _, rfl, rfl⟩
theorem clrV : Statement (.clrV) := ⟨_, _, rfl, rfl⟩
theorem ldiW (nn : Byte) : Statement (.ldiW nn) := ⟨_, _, rfl, rfl⟩
theorem clrW : Statement (.clrW) := ⟨_, _, rfl, rfl⟩

end Sys2Proof.Laws.EncodeLength
end

