-- ==== Sys2Proof/Tests/Slice0.lean ====
section
/-! SUPPORT. Tests. The words and the expected values come from the encoding rules (30_encoding.md) and from the worked
examples and vectors of 95_test_vectors.md (their numbers E<n>, V<n> stand in the docstrings), not from the model. The
witnesses at the end meet the hypotheses of the statements for the provers, one theorem for each statement. -/

namespace Sys2Proof.Tests

open Sys2Proof Sys2Proof.Machine

/-! ### WellFormed -/

/-- Ill-formed for the first check: an illegal opcode. -/
theorem test_wellFormed_refuses_illegal : WellFormed .illegal05 = false := by decide

/-- Ill-formed for the second check: a written form, which has no opcode of its own. -/
theorem test_wellFormed_refuses_written : WellFormed .nop = false := by decide

theorem test_wellFormed_accepts_jrr : WellFormed (.jrr 7#3 0xAF#8 0x17#8) = true := by decide

/-! ### Decoding -/

/-- V3.1, V3.3, V3.5, V3.6, V6.1, V6.2. -/
theorem test_decode_short_branches :
    decode [0x3E#8] = .ok (.jrc 7#5, []) ∧
    decode [0xFE#8] = .ok (.jrc 0b11111#5, []) ∧
    decode [0xD2#8] = .ok (.jrnc 0b11010#5, []) ∧
    decode [0x7C#8] = .ok (.jrz 15#5, []) ∧
    decode [0x80#8] = .ok (.jrnz 0b10000#5, []) ∧
    decode [0x00#8] = .ok (.jrnz 0#5, []) :=
  ⟨rfl, rfl, rfl, rfl, rfl, rfl⟩

/-- V5.1, V5.3, V6.3, V6.4. -/
theorem test_decode_jump_call :
    decode [0xC1#8, 0x8D#8] = .ok (.call 0x8DC#12, []) ∧
    decode [0xD9#8, 0x5C#8] = .ok (.jp 0x5CD#12, []) ∧
    decode [0xA1#8, 0x12#8] = .ok (.call 0x12A#12, []) ∧
    decode [0xA9#8, 0x12#8] = .ok (.jp 0x12A#12, []) :=
  ⟨rfl, rfl, rfl, rfl⟩

/-- E16, E17, V6.5, V6.6; every bit number, V4.8. -/
theorem test_decode_bit_branches :
    decode [0x23#8, 0x70#8, 0xEA#8] = .ok (.jrr 4#3 0x70#8 0xEA#8, []) ∧
    decode [0xF3#8, 0xAF#8, 0x17#8] = .ok (.jrs 7#3 0xAF#8 0x17#8, []) ∧
    decode [0x03#8, 0x84#8, 0x10#8] = .ok (.jrr 0#3 0x84#8 0x10#8, []) ∧
    decode [0x83#8, 0x84#8, 0x10#8] = .ok (.jrr 1#3 0x84#8 0x10#8, []) ∧
    decode [0x43#8, 0x84#8, 0x10#8] = .ok (.jrr 2#3 0x84#8 0x10#8, []) ∧
    decode [0xC3#8, 0x84#8, 0x10#8] = .ok (.jrr 3#3 0x84#8 0x10#8, []) ∧
    decode [0xD3#8, 0x84#8, 0xF0#8] = .ok (.jrs 3#3 0x84#8 0xF0#8, []) ∧
    decode [0x33#8, 0x84#8, 0xF0#8] = .ok (.jrs 4#3 0x84#8 0xF0#8, []) ∧
    decode [0xB3#8, 0x84#8, 0xF0#8] = .ok (.jrs 5#3 0x84#8 0xF0#8, []) ∧
    decode [0x73#8, 0x84#8, 0xF0#8] = .ok (.jrs 6#3 0x84#8 0xF0#8, []) :=
  ⟨rfl, rfl, rfl, rfl, rfl, rfl, rfl, rfl, rfl, rfl⟩

/-- E21, E25, V4.1 to V4.7, V6.7, V6.8. -/
theorem test_decode_bits :
    decode [0x2B#8, 0x23#8] = .ok (.res 4#3 0x23#8, []) ∧
    decode [0x3B#8, 0x23#8] = .ok (.set 4#3 0x23#8, []) ∧
    decode [0x4B#8, 0xC0#8] = .ok (.res 2#3 0xC0#8, []) ∧
    decode [0x5B#8, 0xC0#8] = .ok (.set 2#3 0xC0#8, []) ∧
    decode [0xCB#8, 0x84#8] = .ok (.res 3#3 0x84#8, []) ∧
    decode [0x9B#8, 0x84#8] = .ok (.set 1#3 0x84#8, []) ∧
    decode [0xEB#8, 0x80#8] = .ok (.res 7#3 0x80#8, []) ∧
    decode [0xFB#8, 0x84#8] = .ok (.set 7#3 0x84#8, []) :=
  ⟨rfl, rfl, rfl, rfl, rfl, rfl, rfl, rfl⟩

/-- V6.9, V6.11, V6.13 to V6.16. -/
theorem test_decode_loads_stores :
    decode [0x35#8] = .ok (.ldAReg .x, []) ∧
    decode [0x75#8] = .ok (.ldAReg .y, []) ∧
    decode [0xB5#8] = .ok (.ldAReg .v, []) ∧
    decode [0xF5#8] = .ok (.ldAReg .w, []) ∧
    decode [0x3D#8] = .ok (.ldRegA .x, []) ∧
    decode [0x7D#8] = .ok (.ldRegA .y, []) ∧
    decode [0xBD#8] = .ok (.ldRegA .v, []) ∧
    decode [0xFD#8] = .ok (.ldRegA .w, []) ∧
    decode [0x07#8] = .ok (.ldAInd .x, []) ∧
    decode [0x0F#8] = .ok (.ldAInd .y, []) ∧
    decode [0x87#8] = .ok (.ldIndA .x, []) ∧
    decode [0x8F#8] = .ok (.ldIndA .y, []) ∧
    decode [0x1F#8, 0x34#8] = .ok (.ldADir 0x34#8, []) ∧
    decode [0x9F#8, 0x84#8] = .ok (.ldDirA 0x84#8, []) ∧
    decode [0x17#8, 0x45#8] = .ok (.ldiA 0x45#8, []) ∧
    decode [0x0D#8, 0x84#8, 0x7E#8] = .ok (.ldiDir 0x84#8 0x7E#8, []) :=
  ⟨rfl, rfl, rfl, rfl, rfl, rfl, rfl, rfl, rfl, rfl, rfl, rfl, rfl, rfl, rfl, rfl⟩

/-- V6.10, V6.12, V6.14, V6.16. -/
theorem test_decode_increments :
    decode [0x15#8] = .ok (.incReg .x, []) ∧
    decode [0x55#8] = .ok (.incReg .y, []) ∧
    decode [0x95#8] = .ok (.incReg .v, []) ∧
    decode [0xD5#8] = .ok (.incReg .w, []) ∧
    decode [0x1D#8] = .ok (.decReg .x, []) ∧
    decode [0x5D#8] = .ok (.decReg .y, []) ∧
    decode [0x9D#8] = .ok (.decReg .v, []) ∧
    decode [0xDD#8] = .ok (.decReg .w, []) ∧
    decode [0x67#8] = .ok (.incInd .x, []) ∧
    decode [0x6F#8] = .ok (.incInd .y, []) ∧
    decode [0xE7#8] = .ok (.decInd .x, []) ∧
    decode [0xEF#8] = .ok (.decInd .y, []) ∧
    decode [0x7F#8, 0x90#8] = .ok (.incDir 0x90#8, []) ∧
    decode [0xFF#8, 0x90#8] = .ok (.decDir 0x90#8, []) :=
  ⟨rfl, rfl, rfl, rfl, rfl, rfl, rfl, rfl, rfl, rfl, rfl, rfl, rfl, rfl⟩

/-- E1 to E4, E8, E9, E27, E28, V6.14 to V6.17. -/
theorem test_decode_arithmetic :
    decode [0x47#8] = .ok (.addAInd .x, []) ∧
    decode [0x4F#8] = .ok (.addAInd .y, []) ∧
    decode [0x5F#8, 0x22#8] = .ok (.addADir 0x22#8, []) ∧
    decode [0x57#8, 0x22#8] = .ok (.addiA 0x22#8, []) ∧
    decode [0xA7#8] = .ok (.andAInd .x, []) ∧
    decode [0xAF#8] = .ok (.andAInd .y, []) ∧
    decode [0xBF#8, 0x54#8] = .ok (.andADir 0x54#8, []) ∧
    decode [0xB7#8, 0x33#8] = .ok (.andiA 0x33#8, []) ∧
    decode [0xC7#8] = .ok (.subAInd .x, []) ∧
    decode [0xCF#8] = .ok (.subAInd .y, []) ∧
    decode [0xDF#8, 0x90#8] = .ok (.subADir 0x90#8, []) ∧
    decode [0xD7#8, 0x25#8] = .ok (.subiA 0x25#8, []) ∧
    decode [0x27#8] = .ok (.cpAInd .x, []) ∧
    decode [0x2F#8] = .ok (.cpAInd .y, []) ∧
    decode [0x3F#8, 0x34#8] = .ok (.cpADir 0x34#8, []) ∧
    decode [0x37#8, 0x1C#8] = .ok (.cpiA 0x1C#8, []) ∧
    decode [0x2D#8] = .ok (.comA, []) ∧
    decode [0xAD#8] = .ok (.rlcA, []) :=
  ⟨rfl, rfl, rfl, rfl, rfl, rfl, rfl, rfl, rfl, rfl, rfl, rfl, rfl, rfl, rfl, rfl, rfl, rfl⟩

/-- V6.17. -/
theorem test_decode_control :
    decode [0x4D#8] = .ok (.reti, []) ∧
    decode [0x6D#8] = .ok (.stop, []) ∧
    decode [0xCD#8] = .ok (.ret, []) ∧
    decode [0xED#8] = .ok (.wait, []) :=
  ⟨rfl, rfl, rfl, rfl⟩

/-- 30_encoding.md R95, V6.18. -/
theorem test_decode_illegal :
    decode [0x05#8] = .ok (.illegal05, []) ∧
    decode [0x25#8] = .ok (.illegal25, []) ∧
    decode [0x45#8] = .ok (.illegal45, []) ∧
    decode [0x65#8] = .ok (.illegal65, []) ∧
    decode [0x85#8] = .ok (.illegal85, []) ∧
    decode [0xA5#8] = .ok (.illegalA5, []) ∧
    decode [0xC5#8] = .ok (.illegalC5, []) ∧
    decode [0xE5#8] = .ok (.illegalE5, []) ∧
    decode [0x77#8] = .ok (.illegal77, []) ∧
    decode [0x97#8] = .ok (.illegal97, []) ∧
    decode [0xF7#8] = .ok (.illegalF7, []) ∧
    decode [0x8D#8] = .ok (.illegal8D, []) :=
  ⟨rfl, rfl, rfl, rfl, rfl, rfl, rfl, rfl, rfl, rfl, rfl, rfl⟩

/-- 30_encoding.md R99: the bytes of the pseudo-instructions and of the forms on A alone,
and the instruction they are. -/
theorem test_written_pseudo :
    encode .nop = [0x04#8] ∧
    decode [0x04#8] = .ok (.jrz 0#5, []) ∧
    encode .clrA = [0xDF#8, 0xFF#8] ∧
    decode [0xDF#8, 0xFF#8] = .ok (.subADir 0xFF#8, []) ∧
    encode (.clrDir 0x22#8) = [0x0D#8, 0x22#8, 0x00#8] ∧
    decode [0x0D#8, 0x22#8, 0x00#8] = .ok (.ldiDir 0x22#8 0x00#8, []) ∧
    encode .slaA = [0x5F#8, 0xFF#8] ∧
    decode [0x5F#8, 0xFF#8] = .ok (.addADir 0xFF#8, []) ∧
    encode .incA = [0x7F#8, 0xFF#8] ∧
    decode [0x7F#8, 0xFF#8] = .ok (.incDir 0xFF#8, []) ∧
    encode .decA = [0xFF#8, 0xFF#8] ∧
    decode [0xFF#8, 0xFF#8] = .ok (.decDir 0xFF#8, []) ∧
    encode .ldAA = [0x1F#8, 0xFF#8] ∧
    decode [0x1F#8, 0xFF#8] = .ok (.ldADir 0xFF#8, []) :=
  ⟨rfl, rfl, rfl, rfl, rfl, rfl, rfl, rfl, rfl, rfl, rfl, rfl, rfl, rfl⟩

/-- 30_encoding.md R99: the bytes of ADD, AND, CP and SUB with a register operand,
and the instruction they are. -/
theorem test_written_operand_register :
    encode .addAA = [0x5F#8, 0xFF#8] ∧
    decode [0x5F#8, 0xFF#8] = .ok (.addADir 0xFF#8, []) ∧
    encode .addAX = [0x5F#8, 0x80#8] ∧
    decode [0x5F#8, 0x80#8] = .ok (.addADir 0x80#8, []) ∧
    encode .addAY = [0x5F#8, 0x81#8] ∧
    decode [0x5F#8, 0x81#8] = .ok (.addADir 0x81#8, []) ∧
    encode .addAV = [0x5F#8, 0x82#8] ∧
    decode [0x5F#8, 0x82#8] = .ok (.addADir 0x82#8, []) ∧
    encode .addAW = [0x5F#8, 0x83#8] ∧
    decode [0x5F#8, 0x83#8] = .ok (.addADir 0x83#8, []) ∧
    encode .andAA = [0xBF#8, 0xFF#8] ∧
    decode [0xBF#8, 0xFF#8] = .ok (.andADir 0xFF#8, []) ∧
    encode .andAX = [0xBF#8, 0x80#8] ∧
    decode [0xBF#8, 0x80#8] = .ok (.andADir 0x80#8, []) ∧
    encode .andAY = [0xBF#8, 0x81#8] ∧
    decode [0xBF#8, 0x81#8] = .ok (.andADir 0x81#8, []) ∧
    encode .andAV = [0xBF#8, 0x82#8] ∧
    decode [0xBF#8, 0x82#8] = .ok (.andADir 0x82#8, []) ∧
    encode .andAW = [0xBF#8, 0x83#8] ∧
    decode [0xBF#8, 0x83#8] = .ok (.andADir 0x83#8, []) ∧
    encode .cpAA = [0x3F#8, 0xFF#8] ∧
    decode [0x3F#8, 0xFF#8] = .ok (.cpADir 0xFF#8, []) ∧
    encode .cpAX = [0x3F#8, 0x80#8] ∧
    decode [0x3F#8, 0x80#8] = .ok (.cpADir 0x80#8, []) ∧
    encode .cpAY = [0x3F#8, 0x81#8] ∧
    decode [0x3F#8, 0x81#8] = .ok (.cpADir 0x81#8, []) ∧
    encode .cpAV = [0x3F#8, 0x82#8] ∧
    decode [0x3F#8, 0x82#8] = .ok (.cpADir 0x82#8, []) ∧
    encode .cpAW = [0x3F#8, 0x83#8] ∧
    decode [0x3F#8, 0x83#8] = .ok (.cpADir 0x83#8, []) ∧
    encode .subAA = [0xDF#8, 0xFF#8] ∧
    decode [0xDF#8, 0xFF#8] = .ok (.subADir 0xFF#8, []) ∧
    encode .subAX = [0xDF#8, 0x80#8] ∧
    decode [0xDF#8, 0x80#8] = .ok (.subADir 0x80#8, []) ∧
    encode .subAY = [0xDF#8, 0x81#8] ∧
    decode [0xDF#8, 0x81#8] = .ok (.subADir 0x81#8, []) ∧
    encode .subAV = [0xDF#8, 0x82#8] ∧
    decode [0xDF#8, 0x82#8] = .ok (.subADir 0x82#8, []) ∧
    encode .subAW = [0xDF#8, 0x83#8] ∧
    decode [0xDF#8, 0x83#8] = .ok (.subADir 0x83#8, []) :=
  ⟨rfl, rfl, rfl, rfl, rfl, rfl, rfl, rfl, rfl, rfl, rfl, rfl, rfl, rfl, rfl, rfl, rfl, rfl, rfl, rfl, rfl, rfl,
    rfl, rfl, rfl, rfl, rfl, rfl, rfl, rfl, rfl, rfl, rfl, rfl, rfl, rfl, rfl, rfl, rfl, rfl⟩

/-- 30_encoding.md R99: the bytes of the bit forms on A and of LDI and CLR on a register,
and the instruction they are. -/
theorem test_written_bits_and_loads :
    encode (.resA 4#3) = [0x2B#8, 0xFF#8] ∧
    decode [0x2B#8, 0xFF#8] = .ok (.res 4#3 0xFF#8, []) ∧
    encode (.setA 4#3) = [0x3B#8, 0xFF#8] ∧
    decode [0x3B#8, 0xFF#8] = .ok (.set 4#3 0xFF#8, []) ∧
    encode (.ldiX 0x12#8) = [0x0D#8, 0x80#8, 0x12#8] ∧
    decode [0x0D#8, 0x80#8, 0x12#8] = .ok (.ldiDir 0x80#8 0x12#8, []) ∧
    encode .clrX = [0x0D#8, 0x80#8, 0x00#8] ∧
    decode [0x0D#8, 0x80#8, 0x00#8] = .ok (.ldiDir 0x80#8 0x00#8, []) ∧
    encode (.ldiY 0x12#8) = [0x0D#8, 0x81#8, 0x12#8] ∧
    decode [0x0D#8, 0x81#8, 0x12#8] = .ok (.ldiDir 0x81#8 0x12#8, []) ∧
    encode .clrY = [0x0D#8, 0x81#8, 0x00#8] ∧
    decode [0x0D#8, 0x81#8, 0x00#8] = .ok (.ldiDir 0x81#8 0x00#8, []) ∧
    encode (.ldiV 0x12#8) = [0x0D#8, 0x82#8, 0x12#8] ∧
    decode [0x0D#8, 0x82#8, 0x12#8] = .ok (.ldiDir 0x82#8 0x12#8, []) ∧
    encode .clrV = [0x0D#8, 0x82#8, 0x00#8] ∧
    decode [0x0D#8, 0x82#8, 0x00#8] = .ok (.ldiDir 0x82#8 0x00#8, []) ∧
    encode (.ldiW 0x12#8) = [0x0D#8, 0x83#8, 0x12#8] ∧
    decode [0x0D#8, 0x83#8, 0x12#8] = .ok (.ldiDir 0x83#8 0x12#8, []) ∧
    encode .clrW = [0x0D#8, 0x83#8, 0x00#8] ∧
    decode [0x0D#8, 0x83#8, 0x00#8] = .ok (.ldiDir 0x83#8 0x00#8, []) :=
  ⟨rfl, rfl, rfl, rfl, rfl, rfl, rfl, rfl, rfl, rfl, rfl, rfl, rfl, rfl, rfl, rfl, rfl, rfl, rfl, rfl⟩

/-- Bytes after the instruction are left for the next one; too few bytes are refused by name. -/
theorem test_decode_rest :
    decode [0x2D#8, 0x4D#8] = .ok (.comA, [0x4D#8]) ∧ decode [] = .error .noBytes ∧
    decode [0x0D#8, 0x84#8] = .error (.truncated 0x0D#8) :=
  ⟨rfl, rfl, rfl⟩

/-- The words of the opcode table, first byte in bits 7 to 0: JRZ with e = 0 for the NOP row, and operands of zeros. -/
theorem test_decodeTableWord :
    decodeTableWord 8 0x04 = some (.jrz 0#5) ∧ decodeTableWord 8 0x13 = some (.jrs 0#3 0x00#8 0x00#8) ∧
    decodeTableWord 24 0x7E840D = some (.ldiDir 0x84#8 0x7E#8) ∧ decodeTableWord 8 0x97 = some .illegal97 :=
  ⟨rfl, rfl, rfl, rfl⟩

/-! ### One step -/

/-- A device as in the manual's examples, with data RAM at 00h-3Fh too, where Figure 2 has none: RAM in bank 0, whose cells
are 100h-13Fh. -/
def exampleRam : Device := { exampleDevice with pagedMap := [(0, ⟨0x00, 0x3F, .ram⟩)] }

/-- A state to start from: Normal mode at 200h, with the given registers A, X, Y, V, W, flags Z, C of the normal pair and
data RAM. -/
def start (a x y v w : Byte) (z c : Bool) (ram : Memory) : State :=
  { State.reset with
    device := exampleRam
    pc := 0x200#12
    mode := .normal
    regs := ⟨a, x, y, v, w⟩
    flags := ⟨⟨z, c⟩, ⟨false, false⟩, ⟨false, false⟩⟩
    ram := ram }

/-- The same, with A alone given. -/
def withA (a : Byte) (z c : Bool) : State := start a 0x00#8 0x00#8 0x00#8 0x00#8 z c []

/-- One step of the machine on the instruction whose bytes are given, placed at the pc. -/
def stepOn (s : State) (bytes : List Byte) : Result := step (placeBytes s s.pc bytes)

/-- The next state, if there is one. -/
def next? (r : Result) : Option State :=
  match r with
  | .next t => some t
  | .fault _ => none
  | .refused _ => none

/-- A, Z, C and the pc after a step. -/
def azcPc (r : Result) : Option (Byte × Bool × Bool × PAddr) :=
  (next? r).map fun t => (t.regs.a, t.zFlag, t.cFlag, t.pc)

/-- The byte at a data address, Z, C and the pc after a step. -/
def dataZcPc (b : Byte) (r : Result) : Option (Byte × Bool × Bool × PAddr) :=
  (next? r).map fun t => (dataValue t b, t.zFlag, t.cFlag, t.pc)

/-- The pc after a step. -/
def pcOf (r : Result) : Option PAddr := (next? r).map State.pc

/-- V1.1. -/
theorem test_ldAReg_x :
    azcPc (stepOn (start 0x77#8 0x00#8 0x00#8 0x00#8 0x00#8 false true []) [0x35#8]) =
      some (0x00#8, true, true, 0x201#12) := by decide

/-- V1.2. -/
theorem test_ldAReg_w :
    azcPc (stepOn (start 0x00#8 0x00#8 0x00#8 0x00#8 0x9C#8 true false []) [0xF5#8]) =
      some (0x9C#8, false, false, 0x201#12) := by decide

/-- V1.3. -/
theorem test_ldRegA_v :
    dataZcPc 0x82#8 (stepOn (start 0x7F#8 0x00#8 0x00#8 0x00#8 0x00#8 true false []) [0xBD#8]) =
      some (0x7F#8, false, false, 0x201#12) := by decide

/-- V1.4. -/
theorem test_ldAInd_y :
    azcPc (stepOn (start 0x00#8 0x00#8 0x90#8 0x00#8 0x00#8 true false [(0x90, 0x5A#8)]) [0x0F#8]) =
      some (0x5A#8, false, false, 0x201#12) := by decide

/-- V1.5. -/
theorem test_ldAInd_self :
    azcPc (stepOn (start 0x00#8 0xFF#8 0x00#8 0x00#8 0x00#8 false false []) [0x07#8]) =
      some (0x00#8, true, false, 0x201#12) := by decide

/-- V1.6. -/
theorem test_ldIndA_x :
    dataZcPc 0x84#8 (stepOn (start 0x00#8 0x84#8 0x00#8 0x00#8 0x00#8 false false [(0x84, 0x55#8)]) [0x87#8]) =
      some (0x00#8, true, false, 0x201#12) := by decide

/-- V1.7. -/
theorem test_ldIndA_pointer :
    dataZcPc 0x81#8 (stepOn (start 0x3C#8 0x00#8 0x81#8 0x00#8 0x00#8 true false []) [0x8F#8]) =
      some (0x3C#8, false, false, 0x201#12) := by decide

/-- E19. -/
theorem test_ldADir :
    azcPc (stepOn (start 0x00#8 0x00#8 0x00#8 0x00#8 0x00#8 true true [(0x134, 0x45#8)]) [0x1F#8, 0x34#8]) =
      some (0x45#8, false, true, 0x202#12) := by decide

/-- V1.9. -/
theorem test_ldADir_self :
    azcPc (stepOn (withA 0x00#8 false true) [0x1F#8, 0xFF#8]) =
      some (0x00#8, true, true, 0x202#12) := by decide

/-- V1.10. -/
theorem test_ldDirA :
    dataZcPc 0x84#8 (stepOn (start 0xC3#8 0x00#8 0x00#8 0x00#8 0x00#8 true false []) [0x9F#8, 0x84#8]) =
      some (0xC3#8, false, false, 0x202#12) := by decide

/-- V1.11. -/
theorem test_ldDirA_self :
    azcPc (stepOn (withA 0x00#8 false false) [0x9F#8, 0xFF#8]) =
      some (0x00#8, true, false, 0x202#12) := by decide

/-- V1.12. -/
theorem test_ldiA :
    azcPc (stepOn (withA 0x00#8 true true) [0x17#8, 0x45#8]) =
      some (0x45#8, false, true, 0x202#12) := by decide

/-- V1.13. -/
theorem test_ldiA_zero :
    azcPc (stepOn (withA 0x12#8 false false) [0x17#8, 0x00#8]) =
      some (0x00#8, true, false, 0x202#12) := by decide

/-- E20. -/
theorem test_ldiDir :
    dataZcPc 0x34#8 (stepOn (start 0x00#8 0x00#8 0x00#8 0x00#8 0x00#8 true true []) [0x0D#8, 0x34#8, 0x45#8]) =
      some (0x45#8, true, true, 0x203#12) := by decide

/-- V1.15. -/
theorem test_ldiDir_zero :
    azcPc (stepOn (withA 0x12#8 false false) [0x0D#8, 0xFF#8, 0x00#8]) =
      some (0x00#8, false, false, 0x203#12) := by decide

/-- E1. -/
theorem test_addADir :
    azcPc (stepOn (start 0x20#8 0x00#8 0x00#8 0x00#8 0x00#8 true true [(0x122, 0x33#8)]) [0x5F#8, 0x22#8]) =
      some (0x53#8, false, false, 0x202#12) := by decide

/-- V2.6. -/
theorem test_addADir_noCarryIn :
    azcPc (stepOn (start 0x20#8 0x00#8 0x00#8 0x00#8 0x00#8 false true [(0x122, 0x10#8)]) [0x5F#8, 0x22#8]) =
      some (0x30#8, false, false, 0x202#12) := by decide

/-- E2. -/
theorem test_addiA :
    azcPc (stepOn (withA 0x20#8 false false) [0x57#8, 0x22#8]) =
      some (0x42#8, false, false, 0x202#12) := by decide

/-- V2.2. -/
theorem test_addiA_carry :
    azcPc (stepOn (withA 0x80#8 false false) [0x57#8, 0x80#8]) =
      some (0x00#8, true, true, 0x202#12) := by decide

/-- V2.4. -/
theorem test_addAInd_self :
    azcPc (stepOn (start 0x81#8 0xFF#8 0x00#8 0x00#8 0x00#8 false false []) [0x47#8]) =
      some (0x02#8, false, true, 0x201#12) := by decide

/-- V2.5. -/
theorem test_addAInd_y :
    azcPc (stepOn (start 0x35#8 0x00#8 0x84#8 0x00#8 0x00#8 false false [(0x84, 0xF0#8)]) [0x4F#8]) =
      some (0x25#8, false, true, 0x201#12) := by decide

/-- E3, the byte at 54h in the ROM window. -/
theorem test_andADir :
    azcPc (stepOn ((start 0xCC#8 0x00#8 0x00#8 0x00#8 0x00#8 true true []).setRom [(0x14, 0xF0#8)]) [0xBF#8, 0x54#8]) =
      some (0xC0#8, false, true, 0x202#12) := by decide

/-- V2.7, the byte at 54h in the ROM window. -/
theorem test_andADir_other :
    azcPc (stepOn ((start 0x0F#8 0x00#8 0x00#8 0x00#8 0x00#8 false true []).setRom [(0x14, 0xFA#8)]) [0xBF#8, 0x54#8]) =
      some (0x0A#8, false, true, 0x202#12) := by decide

/-- V2.8. -/
theorem test_andAInd_y :
    azcPc (stepOn (start 0xF0#8 0x00#8 0x85#8 0x00#8 0x00#8 false true [(0x85, 0x0F#8)]) [0xAF#8]) =
      some (0x00#8, true, true, 0x201#12) := by decide

/-- E4. -/
theorem test_andiA :
    azcPc (stepOn (withA 0x0F#8 true false) [0xB7#8, 0x33#8]) =
      some (0x03#8, false, false, 0x202#12) := by decide

/-- V2.9. -/
theorem test_andiA_zero :
    azcPc (stepOn (withA 0xCC#8 false true) [0xB7#8, 0x33#8]) =
      some (0x00#8, true, true, 0x202#12) := by decide

/-- E7. -/
theorem test_comA :
    azcPc (stepOn (withA 0xB9#8 true false) [0x2D#8]) =
      some (0x46#8, false, true, 0x201#12) := by decide

/-- V2.11. -/
theorem test_comA_zero :
    azcPc (stepOn (withA 0xFF#8 false false) [0x2D#8]) =
      some (0x00#8, true, true, 0x201#12) := by decide

/-- E8, by the ST62/63 column. -/
theorem test_cpADir :
    azcPc (stepOn (start 0xF8#8 0x00#8 0x00#8 0x00#8 0x00#8 true true [(0x134, 0x1C#8)]) [0x3F#8, 0x34#8]) =
      some (0xF8#8, false, false, 0x202#12) := by decide

/-- V2.23. -/
theorem test_cpiA :
    azcPc (stepOn (withA 0x1B#8 true false) [0x37#8, 0x1C#8]) =
      some (0x1B#8, false, true, 0x202#12) := by decide

/-- V2.22. -/
theorem test_cpiA_equal :
    azcPc (stepOn (withA 0x1C#8 false true) [0x37#8, 0x1C#8]) =
      some (0x1C#8, true, false, 0x202#12) := by decide

/-- V2.25. -/
theorem test_cpAInd_x :
    azcPc (stepOn (start 0x7F#8 0x84#8 0x00#8 0x00#8 0x00#8 true false [(0x84, 0x80#8)]) [0x27#8]) =
      some (0x7F#8, false, true, 0x201#12) := by decide

/-- E10, at 25h in place of 45h (log entry 37). -/
theorem test_decInd_x :
    dataZcPc 0x25#8 (stepOn (start 0x00#8 0x25#8 0x00#8 0x00#8 0x00#8 true true [(0x125, 0x16#8)]) [0xE7#8]) =
      some (0x15#8, false, true, 0x201#12) := by decide

/-- V2.36, at 25h in place of 45h (log entry 37). -/
theorem test_decInd_zero :
    dataZcPc 0x25#8 (stepOn (start 0x00#8 0x25#8 0x00#8 0x00#8 0x00#8 false true [(0x125, 0x01#8)]) [0xE7#8]) =
      some (0x00#8, true, true, 0x201#12) := by decide

/-- V2.32. -/
theorem test_decReg_v :
    dataZcPc 0x82#8 (stepOn (start 0x00#8 0x00#8 0x00#8 0x01#8 0x00#8 false false []) [0x9D#8]) =
      some (0x00#8, true, false, 0x201#12) := by decide

/-- V2.33. -/
theorem test_decReg_wrap :
    dataZcPc 0x81#8 (stepOn (start 0x00#8 0x00#8 0x00#8 0x00#8 0x00#8 true false []) [0x5D#8]) =
      some (0xFF#8, false, false, 0x201#12) := by decide

/-- V2.35. -/
theorem test_decDir :
    dataZcPc 0x90#8 (stepOn (start 0x00#8 0x00#8 0x00#8 0x00#8 0x00#8 true false [(0x90, 0x00#8)]) [0xFF#8, 0x90#8]) =
      some (0xFF#8, false, false, 0x202#12) := by decide

/-- E11, at 25h in place of 45h (log entry 37). -/
theorem test_incInd_x :
    dataZcPc 0x25#8 (stepOn (start 0x00#8 0x25#8 0x00#8 0x00#8 0x00#8 true true [(0x125, 0x16#8)]) [0x67#8]) =
      some (0x17#8, false, true, 0x201#12) := by decide

/-- V2.30. -/
theorem test_incInd_pointer :
    dataZcPc 0x80#8 (stepOn (start 0x00#8 0x80#8 0x00#8 0x00#8 0x00#8 true false []) [0x67#8]) =
      some (0x81#8, false, false, 0x201#12) := by decide

/-- V2.27. -/
theorem test_incReg_wrap :
    dataZcPc 0x80#8 (stepOn (start 0x00#8 0xFF#8 0x00#8 0x00#8 0x00#8 false true []) [0x15#8]) =
      some (0x00#8, true, true, 0x201#12) := by decide

/-- V2.28. -/
theorem test_incReg_w :
    dataZcPc 0x83#8 (stepOn (start 0x00#8 0x00#8 0x00#8 0x00#8 0x7F#8 true false []) [0xD5#8]) =
      some (0x80#8, false, false, 0x201#12) := by decide

/-- 41_arithmetic_logic.md R147. -/
theorem test_incDir :
    dataZcPc 0x90#8 (stepOn (start 0x00#8 0x00#8 0x00#8 0x00#8 0x00#8 false true [(0x90, 0xFF#8)]) [0x7F#8, 0x90#8]) =
      some (0x00#8, true, true, 0x202#12) := by decide

/-- E24. -/
theorem test_rlcA :
    azcPc (stepOn (withA 0x89#8 true false) [0xAD#8]) =
      some (0x12#8, false, true, 0x201#12) := by decide

/-- V2.15. -/
theorem test_rlcA_carryIn :
    azcPc (stepOn (withA 0x00#8 false true) [0xAD#8]) =
      some (0x01#8, false, false, 0x201#12) := by decide

/-- E27, by the ST62/63 column. -/
theorem test_subAInd_y :
    azcPc (stepOn (start 0x78#8 0x00#8 0x23#8 0x00#8 0x00#8 true true [(0x123, 0x53#8)]) [0xCF#8]) =
      some (0x25#8, false, false, 0x201#12) := by decide

/-- V2.21. -/
theorem test_subAInd_borrow :
    azcPc (stepOn (start 0x05#8 0x84#8 0x00#8 0x00#8 0x00#8 false false [(0x84, 0x06#8)]) [0xC7#8]) =
      some (0xFF#8, false, true, 0x201#12) := by decide

/-- V2.19. -/
theorem test_subADir_equal :
    azcPc (stepOn (start 0x33#8 0x00#8 0x00#8 0x00#8 0x00#8 false true [(0x90, 0x33#8)]) [0xDF#8, 0x90#8]) =
      some (0x00#8, true, false, 0x202#12) := by decide

/-- E28, by the ST62/63 column. -/
theorem test_subiA :
    azcPc (stepOn (withA 0x56#8 true true) [0xD7#8, 0x25#8]) =
      some (0x31#8, false, false, 0x202#12) := by decide

/-- V2.18. -/
theorem test_subiA_borrow :
    azcPc (stepOn (withA 0x00#8 false false) [0xD7#8, 0x01#8]) =
      some (0xFF#8, false, true, 0x202#12) := by decide

/-- E21. -/
theorem test_res :
    dataZcPc 0x23#8 (stepOn (start 0x00#8 0x00#8 0x00#8 0x00#8 0x00#8 true true [(0x123, 0xFF#8)]) [0x2B#8, 0x23#8]) =
      some (0xEF#8, true, true, 0x202#12) := by decide

/-- V4.2. -/
theorem test_res_toZero :
    dataZcPc 0x80#8 (stepOn (start 0x00#8 0x80#8 0x00#8 0x00#8 0x00#8 false false []) [0xEB#8, 0x80#8]) =
      some (0x00#8, false, false, 0x202#12) := by decide

/-- E25. -/
theorem test_set :
    dataZcPc 0x23#8 (stepOn (start 0x00#8 0x00#8 0x00#8 0x00#8 0x00#8 true true [(0x123, 0x00#8)]) [0x3B#8, 0x23#8]) =
      some (0x10#8, true, true, 0x202#12) := by decide

/-- V4.6. -/
theorem test_set_already :
    dataZcPc 0x84#8 (stepOn (start 0x00#8 0x00#8 0x00#8 0x00#8 0x00#8 false false [(0x84, 0x01#8)]) [0x1B#8, 0x84#8]) =
      some (0x01#8, false, false, 0x202#12) := by decide

/-- V3.1. -/
theorem test_jrc_taken :
    pcOf (stepOn ((start 0x00#8 0x00#8 0x00#8 0x00#8 0x00#8 false true []).setPc 0x100#12) [0x3E#8]) =
      some 0x108#12 := by decide

/-- V3.2. -/
theorem test_jrc_not :
    pcOf (stepOn ((start 0x00#8 0x00#8 0x00#8 0x00#8 0x00#8 true false []).setPc 0x100#12) [0x3E#8]) =
      some 0x101#12 := by decide

/-- V3.3. -/
theorem test_jrnc_taken :
    pcOf (stepOn ((start 0x00#8 0x00#8 0x00#8 0x00#8 0x00#8 true false []).setPc 0x100#12) [0xD2#8]) =
      some 0x0FB#12 := by decide

/-- V3.4. -/
theorem test_jrnc_not :
    pcOf (stepOn ((start 0x00#8 0x00#8 0x00#8 0x00#8 0x00#8 false true []).setPc 0x100#12) [0xD2#8]) =
      some 0x101#12 := by decide

/-- V3.7. -/
theorem test_jrz_wraps :
    pcOf (stepOn ((start 0x00#8 0x00#8 0x00#8 0x00#8 0x00#8 true false []).setPc 0xFF8#12) [0x7C#8]) =
      some 0x008#12 := by decide

/-- E18. -/
theorem test_jrz_not :
    pcOf (stepOn ((start 0x00#8 0x00#8 0x00#8 0x00#8 0x00#8 false true []).setPc 0x100#12) [0x3C#8]) =
      some 0x101#12 := by decide

/-- V3.8. -/
theorem test_jrnz_wraps :
    pcOf (stepOn ((start 0x00#8 0x00#8 0x00#8 0x00#8 0x00#8 false true []).setPc 0x005#12) [0x80#8]) =
      some 0xFF6#12 := by decide

/-- E15. -/
theorem test_jrnz_not :
    pcOf (stepOn ((start 0x00#8 0x00#8 0x00#8 0x00#8 0x00#8 true false []).setPc 0x100#12) [0xD0#8]) =
      some 0x101#12 := by decide

/-- V3.12, the byte at 70h in the ROM window. -/
theorem test_jrr_taken :
    azcPc (stepOn (((start 0x00#8 0x00#8 0x00#8 0x00#8 0x00#8 true true
      []).setRom [(0x30, 0xEF#8)]).setPc 110#12) [0x23#8, 0x70#8, 0xEA#8]) =
      some (0x00#8, true, false, 90#12) := by decide

/-- V3.13, the byte at 70h in the ROM window. -/
theorem test_jrr_not :
    azcPc (stepOn (((start 0x00#8 0x00#8 0x00#8 0x00#8 0x00#8 true false
      []).setRom [(0x30, 0x10#8)]).setPc 110#12) [0x23#8, 0x70#8, 0xEA#8]) =
      some (0x00#8, true, true, 113#12) := by decide

/-- V3.14. -/
theorem test_jrs_taken :
    azcPc (stepOn ((start 0x00#8 0x00#8 0x00#8 0x00#8 0x00#8 true false
      [(0xAF, 0x80#8)]).setPc 123#12) [0xF3#8, 0xAF#8, 0x17#8]) =
      some (0x00#8, true, true, 148#12) := by decide

/-- V3.15. -/
theorem test_jrs_not :
    azcPc (stepOn ((start 0x00#8 0x00#8 0x00#8 0x00#8 0x00#8 true true
      [(0xAF, 0x7F#8)]).setPc 123#12) [0xF3#8, 0xAF#8, 0x17#8]) =
      some (0x00#8, true, false, 126#12) := by decide

/-- V5.3. -/
theorem test_jp :
    pcOf (stepOn ((start 0x00#8 0x00#8 0x00#8 0x00#8 0x00#8 false false []).setPc 0x300#12) [0xD9#8, 0x5C#8]) =
      some 0x5CD#12 := by decide

/-- V5.4. -/
theorem test_jp_last :
    pcOf (stepOn ((start 0x00#8 0x00#8 0x00#8 0x00#8 0x00#8 false false []).setPc 0x200#12) [0xF9#8, 0xFF#8]) =
      some 0xFFF#12 := by decide

/-- The pc, the stack level, the first two cells, the mode and the run state after a step. -/
def flow (r : Result) : Option (PAddr × Nat × PAddr × PAddr × Mode × Run) :=
  (next? r).map fun t => (t.pc, t.stack.level, t.stack.l1, t.stack.l2, t.mode, t.run)

/-- A state at the given pc, with the given top of the stack, stack level and mode. -/
def flowState (pc l1 l2 : PAddr) (level : Nat) (m : Mode) : State :=
  { withA 0x00#8 false false with
    pc := pc
    stack := ⟨l1, l2, 0x000#12, 0x000#12, 0x000#12, 0x000#12, level⟩
    mode := m }

/-- V5.1. -/
theorem test_call :
    flow (stepOn (flowState 0x343#12 0x456#12 0x000#12 0 .normal) [0xC1#8, 0x8D#8]) =
      some (0x8DC#12, 1, 0x345#12, 0x456#12, .normal, .running) := by decide

/-- V5.2: the return address wraps. -/
theorem test_call_wraps :
    flow (stepOn (flowState 0xFFE#12 0x000#12 0x000#12 0 .normal) [0x01#8, 0x00#8]) =
      some (0x000#12, 1, 0x000#12, 0x000#12, .normal, .running) := by decide

/-- V5.6. -/
theorem test_ret :
    flow (stepOn (flowState 0x456#12 0x3DF#12 0x000#12 1 .normal) [0xCD#8]) =
      some (0x3DF#12, 0, 0x000#12, 0x000#12, .normal, .running) := by decide

/-- V5.7: an empty stack falls through. -/
theorem test_ret_empty : pcOf (stepOn (flowState 0x456#12 0x3DF#12 0x000#12 0 .normal) [0xCD#8]) = some 0x457#12 := by
  decide

/-- V5.9. -/
theorem test_reti :
    flow (stepOn (flowState 0x456#12 0x3DF#12 0x222#12 2 .nmiFromInt) [0x4D#8]) =
      some (0x3DF#12, 1, 0x222#12, 0x000#12, .int, .running) := by decide

/-- V5.10: the start-up RETI. -/
theorem test_reti_startUp :
    flow (stepOn (flowState 0x883#12 0x000#12 0x000#12 0 .nmiFromNormal) [0x4D#8]) =
      some (0x884#12, 0, 0x000#12, 0x000#12, .normal, .running) := by decide

/-- V5.12. -/
theorem test_stop :
    (next? (stepOn (withA 0x00#8 false false) [0x6D#8])).map (fun t => (t.pc, t.run)) = some (0x201#12, .stopped) := by
  decide

/-- V5.13. -/
theorem test_stop_watchdog :
    (next? (stepOn { withA 0x00#8 false false with device := { exampleRam with watchdogSelected := true } }
      [0x6D#8])).map (fun t => (t.pc, t.run)) = some (0x201#12, .waiting) := by decide

/-- V5.14. -/
theorem test_wait :
    (next? (stepOn ((withA 0x00#8 false false).setPc 0x890#12) [0xED#8])).map (fun t => (t.pc, t.run)) =
      some (0x891#12, .waiting) := by decide

/-- V6.18: an illegal opcode stops the model. -/
theorem test_illegal : exec .illegal97 State.reset = .fault (.illegalOpcode 0x97#8) := rfl

/-- The pseudo-instructions, executed under their own names: V3.9, V2.20, E6, V2.14. -/
theorem test_pseudo :
    azcPc (exec .nop (withA 0x5A#8 true true)) = some (0x5A#8, true, true, 0x201#12) ∧
    azcPc (exec .clrA (withA 0x5A#8 false true)) = some (0x00#8, true, false, 0x202#12) ∧
    dataZcPc 0x22#8 (exec (.clrDir 0x22#8) (withA 0x5A#8 false true)) = some (0x00#8, false, true, 0x203#12) ∧
    azcPc (exec .slaA (withA 0xCD#8 true false)) = some (0x9A#8, false, true, 0x202#12) := by decide

/-- The written forms on A: V2.29, V2.34, V1.9, V2.26, V4.1, V4.7. -/
theorem test_written_onA :
    azcPc (exec .incA (withA 0x7F#8 true false)) = some (0x80#8, false, false, 0x202#12) ∧
    azcPc (exec .decA (withA 0x00#8 true true)) = some (0xFF#8, false, true, 0x202#12) ∧
    azcPc (exec .ldAA (withA 0x00#8 false true)) = some (0x00#8, true, true, 0x202#12) ∧
    azcPc (exec .cpAA (withA 0x9C#8 false true)) = some (0x9C#8, true, false, 0x202#12) ∧
    azcPc (exec (.resA 0#3) (withA 0xFF#8 true true)) = some (0xFE#8, true, true, 0x202#12) ∧
    azcPc (exec (.setA 7#3) (withA 0x01#8 true true)) = some (0x81#8, true, true, 0x202#12) :=
  ⟨by decide, by decide, by decide, by decide, by decide, by decide⟩

/-- The written forms with a register operand, each with its own register (41_arithmetic_logic.md R131, R134, R140,
R151). -/
theorem test_written_registers :
    azcPc (exec .addAX (start 0x01#8 0x10#8 0x20#8 0x30#8 0x40#8 true true [])) =
      some (0x11#8, false, false, 0x202#12) ∧
    azcPc (exec .andAY (start 0x31#8 0x10#8 0x20#8 0x30#8 0x40#8 true true [])) =
      some (0x20#8, false, true, 0x202#12) ∧
    azcPc (exec .subAV (start 0x31#8 0x10#8 0x20#8 0x30#8 0x40#8 true true [])) =
      some (0x01#8, false, false, 0x202#12) ∧
    azcPc (exec .cpAW (start 0x31#8 0x10#8 0x20#8 0x30#8 0x40#8 true false [])) =
      some (0x31#8, false, true, 0x202#12) := by
  decide

/-- V1.14 under its two names. -/
theorem test_written_loads :
    dataZcPc 0x80#8 (exec .clrX (start 0x01#8 0x12#8 0x00#8 0x00#8 0x00#8 false true [])) =
      some (0x00#8, false, true, 0x203#12) ∧
    dataZcPc 0x83#8 (exec (.ldiW 0x12#8) (start 0x01#8 0x00#8 0x00#8 0x00#8 0x00#8 true true [])) =
      some (0x12#8, true, true, 0x203#12) := by decide

/-! ### Interrupts, reset, fetching -/

/-- A state at 123h in the given mode at whose next boundary the environment presents the given requests. -/
def requested (m : Mode) (r : Run) (pending : List Request) (intEnabled : Bool) : State :=
  { flowState 0x123#12 0x456#12 0x000#12 1 m with
    run := r
    inputs := [⟨false, pending, intEnabled, true⟩] }

/-- V7.1. -/
theorem test_interrupt :
    flow (step (requested .normal .running [.int3] true)) =
      some (0xFF2#12, 2, 0x123#12, 0x456#12, .int, .running) := by decide

/-- V7.8: the NMI interrupts an interrupt routine. -/
theorem test_nmi :
    flow (step (requested .int .running [.int1, .nmi] true)) =
      some (0xFFC#12, 2, 0x123#12, 0x456#12, .nmiFromInt, .running) := by decide

/-- V7.2, V7.3, V7.4, V7.5, V7.7, V7.9, V7.10. -/
theorem test_chosen :
    chosen (requested .normal .running [.int3] false) = none ∧
    chosen (requested .normal .running [.int4, .int2] true) = some .int2 ∧
    chosen (requested .normal .running [.int1, .int2, .int3, .int4] true) = some .int1 ∧
    chosen (requested .normal .running [.int1, .nmi] false) = some .nmi ∧
    chosen (requested .int .running [.int3] true) = none ∧
    chosen (requested .nmiFromNormal .running [.nmi, .int1, .int2, .int3, .int4] true) = none ∧
    chosen (requested .nmiFromInt .running [.nmi] true) = none := by decide

/-- "Wake-up" of 95_test_vectors.md 2.7: an accepted request ends a WAIT, a masked one does not. -/
theorem test_wakeUp :
    flow (step (requested .normal .waiting [.int3] true)) =
      some (0xFF2#12, 2, 0x123#12, 0x456#12, .int, .running) ∧
    flow (step (requested .normal .waiting [.int3] false)) =
      some (0x123#12, 1, 0x456#12, 0x000#12, .normal, .waiting) :=
  ⟨by decide, by decide⟩

/-- "Reset from any state" of 95_test_vectors.md 2.7. -/
theorem test_resetInput :
    (next? (step { requested .int .stopped [.nmi] true with inputs := [⟨true, [.nmi], true, true⟩] })).map
      (fun t => (t.pc, t.mode, t.stack.level, t.run)) = some (0xFFE#12, .nmiFromNormal, 0, .running) := by decide

/-- V5.5: the reset vector holds a JP; the word placed by withFetchWord is run by the very next step. -/
theorem test_withFetchWord : pcOf (step (State.reset.withFetchWord 16 0x8809)) = some 0x880#12 := by decide

/-- The bytes of an instruction wrap round the end of program memory (10_state.md R27). -/
theorem test_fetch_wraps :
    pcOf (stepOn ((withA 0x00#8 false false).setPc 0xFFF#12) [0x09#8, 0x12#8]) = some 0x120#12 := by decide

/-- With no program, the first step is the fault of 20_memory.md R69 (log entry 1). -/
theorem test_noProgram : step State.reset = .fault (.fetchUnimplemented 0xFFE#12) := rfl

/-- P6 of 95_test_vectors.md: with 23h in DRWR, data address 42h shows the program byte at 8C2h. -/
theorem test_window :
    dataValue { State.reset with
      control := ⟨0x00#8, 0x23#8, 0x00#8, 0x00#8⟩
      rom := [(0x8C0, 0x11#8), (0x8C1, 0x22#8), (0x8C2, 0x33#8), (0x8C3, 0x44#8)] } 0x42#8 = 0x33#8 := by decide

/-- A device whose window has a table (00_scope.md R4): 42h shows FC1h with 23h in DRWR and 01h in the program ROM bank
register, and FC0h with 23h in DRWR and another bank. -/
def windowTable : State :=
  { State.reset with
    device := { exampleDevice with romWindow :=
      [⟨[(.drwr, 0x23#8), (.romBank, 0x01#8)], 0x42#8, 0xFC1#12⟩, ⟨[(.drwr, 0x23#8)], 0x42#8, 0xFC0#12⟩] }
    control := ⟨0x00#8, 0x23#8, 0x00#8, 0x00#8⟩
    rom := [(0x83F, 0x77#8), (0x8C3, 0x44#8), (0xFC0, 0x55#8), (0xFC1, 0x66#8)] }

/-- The first row that applies counts; an address or a DRWR value in no row has the default. -/
theorem test_windowTable :
    dataValue windowTable 0x42#8 = 0x55#8 ∧ dataValue windowTable 0x43#8 = 0x44#8 ∧
    dataValue { windowTable with control := ⟨0x00#8, 0x23#8, 0x00#8, 0x01#8⟩ } 0x42#8 = 0x66#8 ∧
    dataValue { windowTable with control := ⟨0x00#8, 0x20#8, 0x00#8, 0x00#8⟩ } 0x7F#8 = 0x77#8 := by decide

/-- A device with every kind of data address: at 00h-3Fh, bank 0 is RAM, bank 1 (register value 01h) I/O expansion with two
registers, and bank 2 (register value 02h) is not implemented. -/
def banked : Device :=
  { exampleDevice with
    dataMap := ⟨0xE8, 0xE8, .control .ramBank⟩ :: figure2Map
    pagedMap := [(0, ⟨0x00, 0x3F, .ram⟩), (1, ⟨0x00, 0x00, .peripheral (.other 0)⟩),
      (1, ⟨0x01, 0x01, .peripheral (.other 1)⟩)]
    ramBanks := [(0x01#8, 1), (0x02#8, 2)] }

/-- A state on that device, with the example's stack. -/
def bankedState : State := { flowState 0x200#12 0x3DF#12 0x222#12 2 .normal with device := banked }

/-- 20_memory.md R50: what 00h-3Fh shows follows the bank register at once; the window and the rest stay. -/
theorem test_paging :
    bankedState.place 0x00#8 = .device .ram ∧
    (writeData bankedState 0xE8#8 0x01#8).place 0x00#8 = .device (.peripheral (.other 0)) ∧
    (writeData bankedState 0xE8#8 0x02#8).place 0x00#8 = .device .notImplemented ∧
    (writeData bankedState 0xE8#8 0x02#8).place 0x40#8 = .romWindow ∧
    (writeData bankedState 0xE8#8 0x02#8).place 0x84#8 = .device .ram := by decide

/-- A byte of one bank is still there when its bank is selected again. -/
theorem test_bank_keeps :
    dataValue (writeData (writeData (writeData bankedState 0x3F#8 0x5A#8) 0xE8#8 0x01#8) 0xE8#8 0x00#8) 0x3F#8 =
      0x5A#8 := by decide

/-! ### Witnesses for the hypotheses of the statements -/

/-- A state with as many addresses stacked as said, on a device that does as said with one too many. -/
def stacked (level : Nat) (o : StackOverflow) : State :=
  { flowState 0x200#12 0x3DF#12 0x222#12 level .normal with device := { exampleDevice with stackOverflow := o } }

theorem witness_DecodeOfEncodeIsIdentity :
    WellFormed (.ldiDir 0xFF#8 0x00#8) = true ∧ WellFormed (.jrz 0#5) = true := by decide

theorem witness_EncodeOfDecodeIsIdentity :
    decode [0x0D#8, 0xFF#8, 0x00#8, 0x97#8] = .ok (.ldiDir 0xFF#8 0x00#8, [0x97#8]) := rfl

theorem witness_WrittenFormsEncodeTheirExpansion : (Instr.clrDir 0xFF#8).hasOpcode = false := by decide

theorem witness_FirstByteDecidesInstruction :
    decode [0x0D#8, 0x84#8, 0x7E#8] = .ok (.ldiDir 0x84#8 0x7E#8, []) ∧
    decode [0x0D#8, 0xFF#8, 0x00#8, 0x2D#8] = .ok (.ldiDir 0xFF#8 0x00#8, [0x2D#8]) :=
  ⟨rfl, rfl⟩

theorem witness_LengthFollowsFirstByte :
    (decodeInstr 0x00#8 0#8 0#8).isLegal = true ∧ (decodeInstr 0xFF#8 0#8 0#8).isLegal = true := by decide

/-- At the last program address, with an instruction that wraps round. -/
theorem witness_StepRunsDecodedInstruction :
    let s := placeBytes ((withA 0x00#8 false false).setPc 0xFFF#12) 0xFFF#12 [0x09#8, 0x12#8]
    stepSort s = .execute ∧ fetchBytes s s.pc 2 = .ok [0x09#8, 0x12#8] ∧ decode [0x09#8, 0x12#8] = .ok (.jp 0x120#12, []) :=
  ⟨rfl, rfl, rfl⟩

/-- The first two bytes of a three-byte instruction at the end of program memory; the third, at 001h, is not there. -/
def twoOfThree : State := placeBytes ((withA 0x00#8 false false).setPc 0xFFF#12) 0xFFF#12 [0x0D#8, 0x84#8]

/-- The fault names the operand byte that is not implemented (20_memory.md R69). -/
theorem test_fetch_operandMissing : step twoOfThree = .fault (.fetchUnimplemented 0x001#12) := rfl

/-- One state for each clause. -/
theorem witness_StepFollowsBoundary :
    (presented { State.reset with inputs := [⟨true, [], false, true⟩] }).reset = true ∧
    ((presented (requested .normal .running [.int4] true)).reset = false ∧
      accepts (requested .normal .running [.int4] true) .int4 = true ∧
      ∀ m, accepts (requested .normal .running [.int4] true) m = true → requestNumber .int4 ≤ requestNumber m) ∧
    (∃ i, (presented (placeBytes bankedState 0x200#12 [0x2D#8])).reset = false ∧
      (∀ m, accepts (placeBytes bankedState 0x200#12 [0x2D#8]) m = false) ∧
      (placeBytes bankedState 0x200#12 [0x2D#8]).run = .running ∧
      fetchInstr (placeBytes bankedState 0x200#12 [0x2D#8]) = .ok i) ∧
    ((presented State.reset).reset = false ∧ (∀ m, accepts State.reset m = false) ∧ State.reset.run = .running ∧
      fetchByte State.reset State.reset.pc = none) ∧
    (∃ op, (presented twoOfThree).reset = false ∧ (∀ m, accepts twoOfThree m = false) ∧ twoOfThree.run = .running ∧
      fetchByte twoOfThree twoOfThree.pc = some op ∧ 2 < instrLength op ∧
      (∀ j, j < 2 → fetchByte twoOfThree (twoOfThree.pc + BitVec.ofNat 12 j) ≠ none) ∧
      fetchByte twoOfThree (twoOfThree.pc + BitVec.ofNat 12 2) = none) ∧
    ((presented (requested .normal .stopped [.int4] true)).reset = false ∧
      (∀ m, accepts (requested .normal .stopped [.int4] true) m = false) ∧
      (requested .normal .stopped [.int4] true).run ≠ .running) :=
  ⟨rfl, ⟨rfl, rfl, fun m => by cases m <;> decide⟩,
    ⟨.comA, rfl, fun m => by cases m <;> rfl, rfl, rfl⟩,
    ⟨rfl, fun m => by cases m <;> rfl, rfl, rfl⟩,
    ⟨0x0D#8, rfl, fun m => by cases m <;> rfl, rfl, rfl, by decide, by decide, rfl⟩,
    ⟨rfl, fun m => by cases m <;> rfl, by decide⟩⟩

theorem witness_IllegalOpcodeStops : Instr.illegal8D.isLegal = false := by decide

/-- An instruction other than CALL, CALL with one cell free, and CALL on a full stack of a device that drops. -/
theorem witness_LegalInstructionsComplete :
    Instr.isLegal (.ldiDir 0xC8#8 0x10#8) = true ∧ Instr.isLegal (.call 0xFFF#12) = true ∧
    CanPush (stacked 5 .fault) ∧ CanPush (stacked 6 .dropNew) := by
  refine ⟨rfl, rfl, .inl (by decide), .inr (by decide)⟩

theorem witness_LoadsPutDataInA :
    Instr.expand .ldAA = .ldADir 0xFF#8 ∧ Instr.expand (.ldADir 0x84#8) = .ldADir 0x84#8 := ⟨rfl, rfl⟩

theorem witness_LoadImmediateEffect :
    Instr.expand .clrX = .ldiDir 0x80#8 0x00#8 ∧ Instr.expand (.ldiDir 0xFF#8 0x01#8) = .ldiDir 0xFF#8 0x01#8 := ⟨rfl, rfl⟩

theorem witness_AdditionsToA :
    Instr.expand .slaA = .addADir 0xFF#8 ∧ Instr.expand (.addADir 0x00#8) = .addADir 0x00#8 := ⟨rfl, rfl⟩

theorem witness_ConjunctionsWithA :
    Instr.expand .andAX = .andADir 0x80#8 ∧ Instr.expand (.andADir 0x00#8) = .andADir 0x00#8 := ⟨rfl, rfl⟩

theorem witness_SubtractionsFromA :
    Instr.expand .clrA = .subADir 0xFF#8 ∧ Instr.expand (.subADir 0x00#8) = .subADir 0x00#8 := ⟨rfl, rfl⟩

theorem witness_ComparisonsWithA :
    Instr.expand .cpAW = .cpADir 0x83#8 ∧ Instr.expand (.cpADir 0x00#8) = .cpADir 0x00#8 := ⟨rfl, rfl⟩

theorem witness_IncrementsOfData :
    Instr.expand .incA = .incDir 0xFF#8 ∧ Instr.expand (.incDir 0x00#8) = .incDir 0x00#8 := ⟨rfl, rfl⟩

theorem witness_DecrementsOfData :
    Instr.expand .decA = .decDir 0xFF#8 ∧ Instr.expand (.decDir 0x00#8) = .decDir 0x00#8 := ⟨rfl, rfl⟩

theorem witness_BitInstructionsWriteByteBack :
    Instr.expand (.resA 7#3) = .res 7#3 0xFF#8 ∧ Instr.expand (.set 0#3 0x00#8) = .set 0#3 0x00#8 := ⟨rfl, rfl⟩

/-- Every state has nine successors by RLC. -/
theorem witness_NineRotationsRestore :
    ∃ t1 t2 t3 t4 t5 t6 t7 t8 t9, exec .rlcA State.reset = .next t1 ∧ exec .rlcA t1 = .next t2 ∧
      exec .rlcA t2 = .next t3 ∧ exec .rlcA t3 = .next t4 ∧ exec .rlcA t4 = .next t5 ∧ exec .rlcA t5 = .next t6 ∧
      exec .rlcA t6 = .next t7 ∧ exec .rlcA t7 = .next t8 ∧ exec .rlcA t8 = .next t9 :=
  ⟨_, _, _, _, _, _, _, _, _, rfl, rfl, rfl, rfl, rfl, rfl, rfl, rfl, rfl⟩

theorem witness_CallStacksReturnAddress :
    (stacked 0 .fault).stack.level < 6 ∧ (stacked 5 .fault).stack.level < 6 := by decide

/-- One device for each clause. -/
theorem witness_CallOnFullStack :
    6 ≤ (stacked 6 .fault).stack.level ∧ (stacked 6 .fault).device.stackOverflow = .fault ∧
    (stacked 6 .dropNew).device.stackOverflow = .dropNew ∧
    (stacked 6 .overwriteTop).device.stackOverflow = .overwriteTop := by decide

theorem witness_RetAfterCallReturns :
    (stacked 5 .fault).stack.level < 6 ∧ ∃ t, exec (.call 0x8DC#12) (stacked 5 .fault) = .next t :=
  ⟨by decide, _, rfl⟩

/-- A register, RAM at its two ends, banked RAM at its two ends; both instructions run. -/
theorem witness_BitInstructionsChangeOneBit :
    bankedState.place 0xFF#8 = .core .a ∧ bankedState.place 0x84#8 = .device .ram ∧
    bankedState.place 0xBF#8 = .device .ram ∧ bankedState.place 0x00#8 = .device .ram ∧
    bankedState.place 0x3F#8 = .device .ram ∧ (∃ t, exec (.res 7#3 0x84#8) bankedState = .next t) ∧
    (∃ t, exec (.set 0#3 0x3F#8) bankedState = .next t) :=
  ⟨by decide, by decide, by decide, by decide, by decide, ⟨_, rfl⟩, ⟨_, rfl⟩⟩

theorem witness_RetPopsPc :
    (stacked 0 .fault).stack.level = 0 ∧ 0 < (stacked 1 .fault).stack.level ∧ 0 < (stacked 6 .fault).stack.level := by
  decide

theorem witness_RetiStepsModeBack :
    (stacked 0 .fault).stack.level = 0 ∧ 0 < (stacked 1 .fault).stack.level := by decide

theorem witness_StopAndWaitChangeRunState :
    exampleDevice.watchdogSelected = false ∧
    ({ exampleDevice with watchdogSelected := true } : Device).watchdogSelected = true := by decide

theorem witness_WrittenFormsActAsExpansion : Instr.hasOpcode .subAW = false := by decide

/-- A store to the last RAM address, away from the address asked for; no address and no register written by a compare. -/
theorem witness_InstructionWritesOneByte :
    (∃ t, exec (.ldDirA 0xBF#8) bankedState = .next t) ∧ writtenAddress bankedState (.ldDirA 0xBF#8) = some 0xBF#8 ∧
    bankedState.place 0xBF#8 = .device .ram ∧ ramCell bankedState 0xBF#8 .ram = some 0xBF ∧
    (∃ t, exec (.cpiA 0x00#8) bankedState = .next t) ∧ writtenAddress bankedState (.cpiA 0x00#8) = none :=
  ⟨⟨_, rfl⟩, rfl, by decide, by decide, ⟨_, rfl⟩, rfl⟩

theorem witness_InstructionWritesOwnFlags :
    (∃ t, exec (.jrs 7#3 0xFF#8 0x80#8) bankedState = .next t) ∧ writesZ (.jrs 7#3 0xFF#8 0x80#8) = false ∧
    (∃ t, exec (.ldiA 0x00#8) bankedState = .next t) ∧ writesC (.ldiA 0x00#8) = false :=
  ⟨⟨_, rfl⟩, rfl, ⟨_, rfl⟩, rfl⟩

/-- A write to one control register keeps the others. -/
theorem witness_InstructionKeepsTheRest :
    (∃ t, exec (.ldiDir 0xE8#8 0x01#8) bankedState = .next t) ∧
    writtenAddress bankedState (.ldiDir 0xE8#8 0x01#8) = some 0xE8#8 ∧
    bankedState.place 0xE8#8 = .device (.control .ramBank) ∧
    bankedState.place 0xE8#8 ≠ .device (.control .drwr) :=
  ⟨⟨_, rfl⟩, rfl, by decide, by decide⟩

theorem witness_InstructionTrafficIsItsAccesses :
    (∃ t, exec (.set 0#3 0xC0#8) bankedState = .next t) ∧ operandAddress bankedState (.set 0#3 0xC0#8) = some 0xC0#8 ∧
    writtenAddress bankedState (.set 0#3 0xC0#8) = some 0xC0#8 :=
  ⟨⟨_, rfl⟩, rfl, rfl⟩

theorem witness_PcMovesByLength :
    isTransfer .stop = false ∧ ∃ t, exec .stop (bankedState.setPc 0xFFF#12) = .next t :=
  ⟨rfl, _, rfl⟩

/-- Two neighbours, the written one no control register: in RAM, and where RAM ends. -/
theorem witness_WriteChangesOneByte :
    bankedState.place 0x83#8 = .core .w ∧ bankedState.place 0x84#8 = .device .ram ∧
    bankedState.place 0x3F#8 = .device .ram ∧ 0x85#8 ≠ 0x84#8 ∧ ¬ IsControlAddress bankedState 0x84#8 := by
  refine ⟨by decide, by decide, by decide, by decide, ?_⟩
  rintro ⟨c, h⟩
  cases c <;> exact absurd h (by decide)

theorem witness_ReadReturnsLatestWrite :
    bankedState.place 0x80#8 = .core .x ∧ bankedState.place 0x84#8 = .device .ram ∧
    bankedState.place 0x3F#8 = .device .ram := by decide

/-- An address of each kind. -/
theorem witness_EnvironmentAnswersOutsideAccesses :
    bankedState.place 0xC0#8 = .device (.peripheral .dra) ∧ IsControlAddress bankedState 0xC8#8 ∧
    bankedState.place 0xC3#8 = .device .reserved ∧ State.reset.place 0x3F#8 = .device .notImplemented ∧
    bankedState.place 0xFE#8 = .device .reserved ∧ bankedState.place 0x7F#8 = .romWindow :=
  ⟨by decide, ⟨.ior, by decide⟩, by decide, by decide, by decide, by decide⟩

/-- Both ends of the window, with the default; and a table whose second row applies, the first not. -/
theorem witness_WindowShowsProgramBytes :
    let s := { State.reset with control := ⟨0x00#8, 0x36#8, 0x00#8, 0x00#8⟩, rom := [(0xD80, 0x11#8), (0xDBF, 0x22#8)] }
    let b := [⟨[(.drwr, 0x23#8), (.romBank, 0x01#8)], 0x42#8, 0xFC1#12⟩]
    let r : WindowRow := ⟨[(.drwr, 0x23#8)], 0x42#8, 0xFC0#12⟩
    (0x40 ≤ (0x40#8).toNat ∧ (0x40#8).toNat ≤ 0x7F) ∧ (0x40 ≤ (0x7F#8).toNat ∧ (0x7F#8).toNat ≤ 0x7F) ∧
    (∀ a : Byte, ∀ r ∈ s.device.romWindow, windowRowApplies s.control a r = false) ∧
    fetchByte s (windowAddress s 0x40#8) = some 0x11#8 ∧ fetchByte s (windowAddress s 0x7F#8) = some 0x22#8 ∧
    windowTable.device.romWindow = b ++ r :: [] ∧
    (∀ q ∈ b, windowRowApplies windowTable.control 0x42#8 q = false) ∧ r.addr = 0x42#8 ∧
    (∀ p ∈ r.control, windowTable.control.get p.1 = p.2) ∧
    fetchByte windowTable (windowAddress windowTable 0x42#8) = some 0x55#8 := by decide

theorem witness_UpperProgramHalfIsStatic : 0x800 ≤ (0x800#12).toNat ∧ 0x800 ≤ (0xFFF#12).toNat := by decide

theorem witness_StackIsLastInFirstOut :
    (stacked 4 .fault).stack.level + [0x111#12, 0x222#12].length ≤ 6 ∧
    (stacked 0 .fault).stack.level + (List.replicate 6 0x111#12).length ≤ 6 := by decide

theorem witness_OverfullStackKeepsFirstValues :
    (stacked 0 .fault).stack.level = 0 ∧ 6 ≤ (List.replicate 6 0x111#12).length := by decide

/-- One device for each clause, with a free cell and without. -/
theorem witness_InterruptEntryEffect :
    (stacked 0 .fault).stack.level < 6 ∧ (stacked 5 .fault).stack.level < 6 ∧ 6 ≤ (stacked 6 .fault).stack.level ∧
    (stacked 6 .fault).device.stackOverflow = .fault ∧ (stacked 6 .dropNew).device.stackOverflow = .dropNew ∧
    (stacked 6 .overwriteTop).device.stackOverflow = .overwriteTop := by decide

/-- A handler that has changed A, RAM and its own flags, and has called a subroutine and returned: of the NMI over an
interrupt routine, and of #4. -/
theorem witness_RetiAfterEntryResumes :
    (∃ t u, (requested .int .running [] true).stack.level < 6 ∧ isUnmasked (requested .int .running [] true) .nmi = true ∧
      takeInterrupt .nmi (requested .int .running [] true) = .next t ∧
      exec .ret ((({ t with stack := { t.stack with l1 := 0x111#12, l2 := t.stack.l1, l3 := t.stack.l2, level := 3 } }).setReg
        .a 0x77#8).setZC true true) = .next u ∧
      u.mode = t.mode ∧ u.stack.level = t.stack.level ∧ stackedAddresses u.stack = stackedAddresses t.stack ∧
      u.flags.active .int = (requested .int .running [] true).flags.active .int) ∧
    ∃ t, isUnmasked (requested .normal .running [] true) .int4 = true ∧
      takeInterrupt .int4 (requested .normal .running [] true) = .next t :=
  ⟨⟨_, _, by decide, by decide, rfl, rfl, rfl, rfl, rfl, rfl⟩, ⟨_, by decide, rfl⟩⟩

theorem witness_ModeChangesOnlyByEntryResetReti :
    ∃ t, step (placeBytes { State.reset with inputs := [] } 0xFFE#12 [0x4D#8]) = .next t ∧
      t.mode ≠ (placeBytes { State.reset with inputs := [] } 0xFFE#12 [0x4D#8]).mode :=
  ⟨_, rfl, by decide⟩

theorem witness_AcceptedRequestWakesCore :
    (requested .normal .stopped [.int1] true).run ≠ .running ∧
    (presented (requested .normal .stopped [.int1] true)).reset = false ∧
    chosen (requested .normal .stopped [.int1] true) = some .int1 ∧
    (requested .normal .stopped [.int1] true).stack.level < 6 := by decide

/-- The same on a full stack, one device for each clause. -/
theorem witness_AcceptedRequestWakesCore_full :
    ∀ o ∈ [StackOverflow.fault, .dropNew, .overwriteTop],
      let s := { stacked 6 o with run := .waiting, inputs := [⟨false, [.int1], true, true⟩] }
      s.run ≠ .running ∧ (presented s).reset = false ∧ chosen s = some .int1 ∧ 6 ≤ s.stack.level ∧
      s.device.stackOverflow = o ∧ (o ≠ .fault → s.device.stackOverflow ≠ .fault) := by decide

theorem witness_StoppedCoreIgnoresInternalRequests :
    (requested .normal .stopped [.int3, .int4] true).run = .stopped ∧
    (presented (requested .normal .stopped [.int3, .int4] true)).reset = false ∧
    ∀ n ∈ (presented (requested .normal .stopped [.int3, .int4] true)).pending,
      n ∉ (requested .normal .stopped [.int3, .int4] true).device.external := by decide

theorem reset_inv : Inv State.reset :=
  ⟨List.Pairwise.nil, List.Pairwise.nil, fun _ h => absurd h (by simp [State.reset]), by decide⟩

/-- The state after reset, with a reset presented: the next step is defined. -/
theorem witness_StepKeepsInvariant :
    Inv { State.reset with inputs := [⟨true, [], false, true⟩] } ∧
    ∃ t, step { State.reset with inputs := [⟨true, [], false, true⟩] } = .next t :=
  ⟨⟨List.Pairwise.nil, List.Pairwise.nil, fun _ h => absurd h (by simp [State.reset]), by decide⟩, _, rfl⟩

theorem witness_StepKeepsProgramAndDevice : ∃ t, step (placeBytes State.reset 0xFFE#12 [0x6D#8]) = .next t := ⟨_, rfl⟩

end Sys2Proof.Tests
end

section
/-! The state of the core (10_state.md): what one instruction can do, as one case split over its effects, and what
follows from it for the stack, the flags, the mode, the pc and the invariant. -/

namespace Sys2Proof.Machine

/-! ### The effects of one instruction -/

/-- From `s`, instruction `i` can lead to the state: a plain instruction reads its operand, writes at most one byte, its
own flag bits and the pc; five instructions do something else. Tied to `exec` by `effect_of_exec_next`. -/
inductive Effect (s : State) : Instr → State → Prop where
  | plain {i : Instr} (v : Byte) (z c : Bool) (p : PAddr) (plain : isPlain i = true)
      (zKept : writesZ i = false → z = s.zFlag) (cKept : writesC i = false → c = s.cFlag)
      (pcMoved : isTransfer i = false → p = s.pc + BitVec.ofNat 12 (encode i).length) :
      Effect s i (((resultWritten s i v).setZC z c).setPc p)
  | call (abc : PAddr) (k : Stack) (pushes : pushed s.device.stackOverflow s.stack (s.pc + 2#12) = some k) :
      Effect s (.call abc) ((s.setStack k).setPc abc)
  | ret : Effect s .ret (popAndReturn s)
  | reti : Effect s .reti (returnFromInterrupt s)
  | stop : Effect s .stop ((s.advance 1#12).setRun (if s.device.watchdogSelected then .waiting else .stopped))
  | wait : Effect s .wait ((s.advance 1#12).setRun .waiting)

/-- The five instructions that change the stack or the run state. -/
theorem isPlain_eq_false {i : Instr} (h : isPlain i = false) :
    (∃ abc, i = .call abc) ∨ i = .ret ∨ i = .reti ∨ i = .stop ∨ i = .wait := by
  cases i with
  | call abc => exact .inl ⟨abc, rfl⟩
  | ret | reti | stop | wait => simp
  | _ => exact Bool.noConfusion (show true = false from h)

theorem isPlain_expand (i : Instr) : isPlain i.expand = isPlain i := by cases i <;> rfl

theorem wellFormed_expand {i : Instr} (h : i.isLegal = true) : WellFormed i.expand = true := by
  cases i with
  | illegal05 | illegal25 | illegal45 | illegal65 | illegal85 | illegalA5 | illegalC5 | illegalE5 | illegal77
  | illegal97 | illegalF7 | illegal8D => exact Bool.noConfusion (show false = true from h)
  | _ => rfl

theorem writtenAddress_expand (s : State) (i : Instr) : writtenAddress s i.expand = writtenAddress s i := by
  rw [writtenAddress, writtenAddress, expand_expand]

theorem operandAddress_expand (s : State) (i : Instr) : operandAddress s i.expand = operandAddress s i := by
  rw [operandAddress, operandAddress, expand_expand]

theorem writesZ_expand (i : Instr) : writesZ i.expand = writesZ i := by rw [writesZ, writesZ, expand_expand]

theorem writesC_expand (i : Instr) : writesC i.expand = writesC i := by rw [writesC, writesC, expand_expand]

theorem isTransfer_expand (i : Instr) : isTransfer i.expand = isTransfer i := by
  rw [isTransfer, isTransfer, expand_expand]

theorem resultWritten_expand (s : State) (i : Instr) (v : Byte) :
    resultWritten s i.expand v = resultWritten s i v := by
  simp [resultWritten, operandRead, writtenAddress_expand, operandAddress_expand]

/-- An illegal opcode stops the machine (30_encoding.md R95). -/
theorem exec_of_not_isLegal {i : Instr} (h : i.isLegal = false) (s : State) :
    ∃ op, exec i s = .fault (.illegalOpcode op) := by
  cases i with
  | illegal05 | illegal25 | illegal45 | illegal65 | illegal85 | illegalA5 | illegalC5 | illegalE5 | illegal77
  | illegal97 | illegalF7 | illegal8D => exact ⟨_, rfl⟩
  | _ => exact Bool.noConfusion (show true = false from h)

theorem isLegal_of_exec_next {s t : State} {i : Instr} (h : exec i s = .next t) : i.isLegal = true := by
  cases hl : i.isLegal with
  | true => rfl
  | false =>
    obtain ⟨op, hf⟩ := exec_of_not_isLegal hl s
    rw [hf] at h
    cases h

/-- All that an instruction can do, written forms included. -/
theorem effect_of_exec_next {s t : State} {i : Instr} (h : exec i s = .next t) : Effect s i t := by
  cases hp : isPlain i with
  | true =>
    obtain ⟨v, z, c, p, he, hz, hc, hpc⟩ :=
      exec_shape s i.expand (wellFormed_expand (isLegal_of_exec_next h)) (isPlain_expand i ▸ hp)
    rw [← exec_expand, h, resultWritten_expand] at he
    rw [writesZ_expand] at hz
    rw [writesC_expand] at hc
    rw [isTransfer_expand, encode_expand] at hpc
    obtain rfl := Host.Outcome.next.inj he
    exact .plain v z c p hp hz hc hpc
  | false =>
    obtain ⟨abc, rfl⟩ | rfl | rfl | rfl | rfl := isPlain_eq_false hp
    · obtain ⟨k, hk, rfl⟩ := pushAndGo_next h
      exact .call abc k hk
    all_goals obtain rfl := Host.Outcome.next.inj h
    · exact .ret
    · exact .reti
    · exact .stop
    · exact .wait

/-! ### What the parts of an effect leave unchanged -/

section Fields
variable (s : State) (i : Instr) (v : Byte)

/-- Reading the operand is one read, or nothing. -/
theorem operandRead_cases : operandRead s i = s ∨ ∃ a, operandRead s i = afterRead s a := by
  unfold operandRead
  split
  · exact .inr ⟨_, rfl⟩
  · exact .inl rfl

@[simp] theorem operandRead_device : (operandRead s i).device = s.device := by
  rcases operandRead_cases s i with h | ⟨a, h⟩ <;> simp [h]

@[simp] theorem operandRead_stack : (operandRead s i).stack = s.stack := by
  rcases operandRead_cases s i with h | ⟨a, h⟩ <;> simp [h]

@[simp] theorem operandRead_flags : (operandRead s i).flags = s.flags := by
  rcases operandRead_cases s i with h | ⟨a, h⟩ <;> simp [h]

@[simp] theorem operandRead_mode : (operandRead s i).mode = s.mode := by
  rcases operandRead_cases s i with h | ⟨a, h⟩ <;> simp [h]

@[simp] theorem operandRead_run : (operandRead s i).run = s.run := by
  rcases operandRead_cases s i with h | ⟨a, h⟩ <;> simp [h]

@[simp] theorem operandRead_ram : (operandRead s i).ram = s.ram := by
  rcases operandRead_cases s i with h | ⟨a, h⟩ <;> simp [h]

@[simp] theorem operandRead_control : (operandRead s i).control = s.control := by
  rcases operandRead_cases s i with h | ⟨a, h⟩ <;> simp [h]

@[simp] theorem operandRead_rom : (operandRead s i).rom = s.rom := by
  rcases operandRead_cases s i with h | ⟨a, h⟩ <;> simp [h]

@[simp] theorem operandRead_inputs : (operandRead s i).inputs = s.inputs := by
  rcases operandRead_cases s i with h | ⟨a, h⟩ <;> simp [h]

@[simp] theorem operandRead_epoch : (operandRead s i).epoch = s.epoch := by
  rcases operandRead_cases s i with h | ⟨a, h⟩ <;> simp [h]

/-- After the read of the operand comes one write, at the written address, or nothing. -/
theorem resultWritten_cases :
    (∃ a, writtenAddress s i = some a ∧ resultWritten s i v = writeData (operandRead s i) a v) ∨
      resultWritten s i v = operandRead s i := by
  unfold resultWritten
  cases h : writtenAddress s i with
  | some a => exact .inl ⟨a, rfl, rfl⟩
  | none => exact .inr rfl

@[simp] theorem resultWritten_device : (resultWritten s i v).device = s.device := by
  rcases resultWritten_cases s i v with ⟨a, -, h⟩ | h <;> simp [h]

@[simp] theorem resultWritten_stack : (resultWritten s i v).stack = s.stack := by
  rcases resultWritten_cases s i v with ⟨a, -, h⟩ | h <;> simp [h]

@[simp] theorem resultWritten_flags : (resultWritten s i v).flags = s.flags := by
  rcases resultWritten_cases s i v with ⟨a, -, h⟩ | h <;> simp [h]

@[simp] theorem resultWritten_mode : (resultWritten s i v).mode = s.mode := by
  rcases resultWritten_cases s i v with ⟨a, -, h⟩ | h <;> simp [h]

@[simp] theorem resultWritten_run : (resultWritten s i v).run = s.run := by
  rcases resultWritten_cases s i v with ⟨a, -, h⟩ | h <;> simp [h]

@[simp] theorem resultWritten_rom : (resultWritten s i v).rom = s.rom := by
  rcases resultWritten_cases s i v with ⟨a, -, h⟩ | h <;> simp [h]

@[simp] theorem resultWritten_inputs : (resultWritten s i v).inputs = s.inputs := by
  rcases resultWritten_cases s i v with ⟨a, -, h⟩ | h <;> simp [h]

@[simp] theorem resultWritten_epoch : (resultWritten s i v).epoch = s.epoch := by
  rcases resultWritten_cases s i v with ⟨a, -, h⟩ | h <;> simp [h]

/-- A return changes the stack and the pc alone. -/
theorem popAndReturn_eq : ∃ k p, popAndReturn s = (s.setStack k).setPc p := by
  rcases popAndReturn_cases s with ⟨-, h⟩ | ⟨-, h⟩
  · exact ⟨s.stack, _, h⟩
  · exact ⟨_, _, h⟩

end Fields

/-! ### Flags -/

/-- Writing the active pair leaves the other two (10_state.md R32). -/
theorem otherPairsKept_of_setActive {s t : State} {p : FlagPair} (h : t.flags = s.flags.setActive s.mode p) :
    OtherPairsKept s t := by
  unfold OtherPairsKept
  rw [h]
  cases s.mode <;> exact ⟨rfl, rfl⟩

/-- Every instruction leaves the flags as a write of the active pair does, Z and C kept unless it writes them. -/
theorem exec_flags {s t : State} {i : Instr} (h : exec i s = .next t) :
    ∃ z c, t.flags = s.flags.setActive s.mode ⟨z, c⟩ ∧ (writesZ i = false → z = s.zFlag) ∧
      (writesC i = false → c = s.cFlag) := by
  have kept : s.flags = s.flags.setActive s.mode ⟨s.zFlag, s.cFlag⟩ := (setActive_active _ _).symm
  cases effect_of_exec_next h with
  | plain v z c p _ hz hc _ => exact ⟨z, c, by simp, hz, hc⟩
  | call abc k _ => exact ⟨_, _, kept, fun _ => rfl, fun _ => rfl⟩
  | ret =>
    obtain ⟨k, p, hr⟩ := popAndReturn_eq s
    exact ⟨_, _, by rw [hr]; exact kept, fun _ => rfl, fun _ => rfl⟩
  | reti =>
    obtain ⟨k, p, hr⟩ := popAndReturn_eq s
    exact ⟨_, _, by rw [returnFromInterrupt, hr]; exact kept, fun _ => rfl, fun _ => rfl⟩
  | stop => exact ⟨_, _, kept, fun _ => rfl, fun _ => rfl⟩
  | wait => exact ⟨_, _, kept, fun _ => rfl, fun _ => rfl⟩

/-- Settles O37: the flags after an instruction are those before with the active pair written, if at all. -/
theorem instructionWritesOwnFlags : Obligations.InstructionWritesOwnFlags := by
  intro s t i h
  obtain ⟨z, c, hf, hz, hc⟩ := exec_flags h
  exact ⟨otherPairsKept_of_setActive hf, fun hw => by simp [hf, hz hw], fun hw => by simp [hf, hc hw]⟩

/-! ### Stack, mode, run state, control bytes, program and device -/

/-- A write changes a control byte only at the address of its register (10_state.md R38). -/
theorem writeData_control_get {s : State} {a : Byte} {c : ControlReg} (v : Byte)
    (h : s.place a ≠ .device (.control c)) : (writeData s a v).control.get c = s.control.get c := by
  rcases writeData_cases s a v with ⟨r, -, hw⟩ | ⟨p, -, hw⟩ | ⟨e, hp, hw⟩ | ⟨k, j, -, -, hw⟩ | ⟨-, -, hw⟩ <;> rw [hw]
  case inr.inr.inl =>
    have hce : c ≠ e := fun hce => h (hce ▸ hp)
    exact control_get_set_other s.control v hce
  all_goals rfl

theorem resultWritten_control_get {s : State} {i : Instr} {c : ControlReg} (v : Byte)
    (h : ∀ a, writtenAddress s i = some a → s.place a ≠ .device (.control c)) :
    (resultWritten s i v).control.get c = s.control.get c := by
  rcases resultWritten_cases s i v with ⟨a, ha, hr⟩ | hr
  · have hp : (operandRead s i).place a = s.place a :=
      place_congr (operandRead_device s i) (operandRead_control s i) a
    rw [hr, writeData_control_get v (hp ▸ h a ha), operandRead_control]
  · rw [hr, operandRead_control]

/-- Settles O38, effect by effect. -/
theorem instructionKeepsTheRest : Obligations.InstructionKeepsTheRest := by
  intro s t i h
  cases effect_of_exec_next h with
  | plain v z c p _ _ _ _ =>
    exact ⟨fun _ _ _ => by simp, fun _ => by simp, fun _ _ => by simp,
      fun c hc => by simpa using resultWritten_control_get v hc, by simp, by simp, by simp, by simp⟩
  | call abc k _ =>
    exact ⟨fun hi => absurd rfl (hi abc), fun _ => rfl, fun _ _ => rfl, fun _ _ => rfl, rfl, rfl, rfl, rfl⟩
  | ret =>
    obtain ⟨k, p, hr⟩ := popAndReturn_eq s
    rw [hr]
    exact ⟨fun _ hi => absurd rfl hi, fun _ => rfl, fun _ _ => rfl, fun _ _ => rfl, rfl, rfl, rfl, rfl⟩
  | reti =>
    obtain ⟨k, p, hr⟩ := popAndReturn_eq s
    rw [returnFromInterrupt, hr]
    exact ⟨fun _ _ hi => absurd rfl hi, fun hi => absurd rfl hi, fun _ _ => rfl, fun _ _ => rfl, rfl, rfl, rfl, rfl⟩
  | stop =>
    exact ⟨fun _ _ _ => rfl, fun _ => rfl, fun hi => absurd rfl hi, fun _ _ => rfl, rfl, rfl, rfl, rfl⟩
  | wait =>
    exact ⟨fun _ _ _ => rfl, fun _ => rfl, fun _ hi => absurd rfl hi, fun _ _ => rfl, rfl, rfl, rfl, rfl⟩

/-! ### The program counter and the mode -/

/-- Settles O40: CALL, RET and RETI are transfers, and STOP and WAIT are one byte long. -/
theorem pcMovesByLength : Obligations.PcMovesByLength := by
  intro s t i hi h
  cases effect_of_exec_next h with
  | plain v z c p _ _ _ hpc => exact hpc hi
  | call | ret | reti => cases hi
  | stop | wait => rfl

/-- Fetching sees the device, the pc, the control bytes and program memory alone. -/
theorem fetchInstr_congr {s t : State} (hd : t.device = s.device) (hp : t.pc = s.pc) (hc : t.control = s.control)
    (hr : t.rom = s.rom) : fetchInstr t = fetchInstr s := by
  simp only [fetchInstr, hp, fetchByte_congr hd hc hr, fetchBytes_congr hd hc hr]

/-- Settles O53: of the five sorts of step, an idle one keeps the mode, and so does an instruction that is not RETI. -/
theorem modeChangesOnlyByEntryResetReti : Obligations.ModeChangesOnlyByEntryResetReti := by
  intro s t h hm
  rcases step_cases s with ⟨hs, -⟩ | ⟨n, hs, -⟩ | ⟨i, -, hf, he⟩ | ⟨a, -, -, he⟩ | ⟨-, he⟩
  · exact .inl hs
  · exact .inr (.inl ⟨n, hs⟩)
  · obtain ⟨-, mode, -⟩ := instructionKeepsTheRest (pastBoundary s) t i (he ▸ h)
    have hi : i = .reti := by_contra fun hi => hm (mode hi)
    have same : fetchInstr (pastBoundary s) = fetchInstr s := fetchInstr_congr rfl rfl rfl rfl
    exact .inr (.inr (by rw [← same, hf, hi]))
  · rw [he] at h
    cases h
  · rw [he] at h
    exact absurd (congrArg State.mode (Host.Outcome.next.inj h)).symm hm

/-! ### The stack as a list of return addresses -/

theorem stackedAddresses_length {k : Stack} (h : k.level ≤ 6) : (stackedAddresses k).length = k.level := by
  simp [stackedAddresses, h]

/-- While a cell is free, a push puts its value before those stacked (10_state.md R29). -/
theorem pushed_of_free {k : Stack} (h : k.level < 6) (o : StackOverflow) (v : PAddr) :
    ∃ k', pushed o k v = some k' ∧ k'.level = k.level + 1 ∧ stackedAddresses k' = v :: stackedAddresses k := by
  refine ⟨⟨v, k.l1, k.l2, k.l3, k.l4, k.l5, k.level + 1⟩, by simp [pushed, h], rfl, ?_⟩
  obtain ⟨l1, l2, l3, l4, l5, l6, n⟩ := k
  dsimp only at h
  interval_cases n <;> rfl

/-- A pop takes the first of the addresses stacked (10_state.md R30). -/
theorem popped_of_stackedAddresses {k : Stack} {v : PAddr} {vs : List PAddr} (h : k.level ≤ 6)
    (hk : stackedAddresses k = v :: vs) :
    ∃ k', popped k = some (v, k') ∧ k'.level + 1 = k.level ∧ stackedAddresses k' = vs := by
  obtain ⟨l1, l2, l3, l4, l5, l6, n⟩ := k
  dsimp only at h
  cases n with
  | zero => cases hk
  | succ n =>
    obtain ⟨rfl, rfl⟩ := List.cons.inj hk
    refine ⟨⟨l2, l3, l4, l5, l6, l6, n⟩, rfl, rfl, ?_⟩
    have hn : n ≤ 5 := by omega
    interval_cases n <;> rfl

theorem pushAll_append (o : StackOverflow) (k : Stack) (vs ws : List PAddr) :
    pushAll o k (vs ++ ws) = (pushAll o k vs).bind fun k' => pushAll o k' ws := by
  induction vs generalizing k with
  | nil => rfl
  | cons v vs ih =>
    simp only [List.cons_append, pushAll]
    cases pushed o k v with
    | none => rfl
    | some k' => exact ih k'

/-- As many addresses as cells are free can be pushed; the last one is then the first stacked. -/
theorem pushAll_of_free (o : StackOverflow) {k : Stack} {vs : List PAddr} (h : k.level + vs.length ≤ 6) :
    ∃ k', pushAll o k vs = some k' ∧ k'.level = k.level + vs.length ∧
      stackedAddresses k' = vs.reverse ++ stackedAddresses k := by
  induction vs generalizing k with
  | nil => exact ⟨k, rfl, rfl, rfl⟩
  | cons v vs ih =>
    rw [List.length_cons] at h
    obtain ⟨k₁, hp, hl, hs⟩ := pushed_of_free (k := k) (by omega) o v
    obtain ⟨k', hp', hl', hs'⟩ := ih (k := k₁) (by omega)
    refine ⟨k', by simp [pushAll, hp, hp'], ?_, by simp [hs', hs]⟩
    rw [List.length_cons]
    omega

/-- Pops give the addresses stacked, the first first. -/
theorem popTimes_of_stackedAddresses {k : Stack} {vs ws : List PAddr} (h : k.level ≤ 6)
    (hk : stackedAddresses k = vs ++ ws) :
    ∃ k', popTimes k vs.length = some (vs, k') ∧ k'.level + vs.length = k.level := by
  induction vs generalizing k with
  | nil => exact ⟨k, rfl, rfl⟩
  | cons v vs ih =>
    obtain ⟨k₁, hp, hl, hs⟩ := popped_of_stackedAddresses h hk
    obtain ⟨k', hp', hl'⟩ := ih (k := k₁) (by omega) hs
    refine ⟨k', by simp [popTimes, hp, hp'], ?_⟩
    rw [List.length_cons]
    omega

/-- Settles O47: a stack is the list of the addresses stacked; pushes put theirs before it, pops take them off again. -/
theorem stackIsLastInFirstOut : Obligations.StackIsLastInFirstOut := by
  intro o k vs h
  obtain ⟨k', hpush, hlevel, hstacked⟩ := pushAll_of_free o h
  obtain ⟨k'', hpop, hlevel'⟩ := popTimes_of_stackedAddresses (by omega) hstacked
  rw [List.length_reverse] at hpop hlevel'
  exact ⟨k', k'', hpush, hlevel, hpop, by omega⟩

/-! ### Pushes on a full stack, for each `STACK_OVERFLOW` (10_state.md R29; 92_eei_decisions.md D7) -/

theorem pushAll_fault_of_full {k : Stack} (h : 6 ≤ k.level) (w : PAddr) (ws : List PAddr) :
    pushAll .fault k (w :: ws) = none := by
  simp [pushAll, pushed_eq_none.2 ⟨h, rfl⟩]

theorem pushAll_dropNew_of_full {k : Stack} (h : 6 ≤ k.level) (ws : List PAddr) :
    pushAll .dropNew k ws = some k := by
  induction ws with
  | nil => rfl
  | cons w ws ih => simpa [pushAll, pushed, Nat.not_lt.2 h] using ih

/-- Of the values pushed on a full stack that overwrites its top, the last one is left. -/
theorem pushAll_overwriteTop_of_full {k : Stack} (h : 6 ≤ k.level) (ws : List PAddr) (v : PAddr) :
    pushAll .overwriteTop k (ws ++ [v]) = some { k with l1 := v } := by
  induction ws generalizing k with
  | nil => simp [pushAll, pushed, Nat.not_lt.2 h]
  | cons w ws ih => simpa [pushAll, pushed, Nat.not_lt.2 h] using ih (k := { k with l1 := w }) h

/-- The addresses stacked on a full stack whose top is overwritten. -/
theorem stackedAddresses_overwriteTop {k : Stack} (h : k.level = 6) (v : PAddr) :
    stackedAddresses { k with l1 := v } = v :: (stackedAddresses k).tail := by
  simp [stackedAddresses, h]

/-- Six pops empty a full stack. -/
theorem popTimes_six {k : Stack} (h : k.level = 6) : ∃ k', popTimes k 6 = some (stackedAddresses k, k') := by
  obtain ⟨k', hpop, -⟩ := popTimes_of_stackedAddresses h.le (List.append_nil (stackedAddresses k)).symm
  rw [stackedAddresses_length h.le, h] at hpop
  exact ⟨k', hpop⟩

/-- Settles O48: the first six values fill the stack; what the rest do is a law of each `STACK_OVERFLOW`. -/
theorem overfullStackKeepsFirstValues : Obligations.OverfullStackKeepsFirstValues := by
  intro k vs v hempty hlen
  have dropLast_six : (vs.take 6).dropLast = vs.take 5 := by simp [List.dropLast_eq_take, List.take_take, hlen]
  have first_six (o : StackOverflow) : ∃ f, f.level = 6 ∧ stackedAddresses f = (vs.take 6).reverse ∧
      pushAll o k (vs ++ [v]) = pushAll o f (vs.drop 6 ++ [v]) := by
    have hk : stackedAddresses k = [] := List.length_eq_zero_iff.1 (by rw [stackedAddresses_length] <;> omega)
    obtain ⟨f, hpush, hlevel, hstacked⟩ := pushAll_of_free o (k := k) (vs := vs.take 6) (by simp [hempty])
    refine ⟨f, by simp [hlevel, hempty, hlen], by simp [hstacked, hk], ?_⟩
    rw [← List.take_append_drop 6 vs, List.append_assoc, pushAll_append, hpush]
    simp
  refine ⟨?_, ?_, ?_⟩
  · obtain ⟨f, hlevel, -, hrest⟩ := first_six .fault
    rw [hrest, ← List.cons_head_tail (List.append_ne_nil_of_right_ne_nil _ (List.cons_ne_nil v []))]
    exact pushAll_fault_of_full hlevel.ge _ _
  · obtain ⟨f, hlevel, hstacked, hrest⟩ := first_six .dropNew
    obtain ⟨k'', hpop⟩ := popTimes_six hlevel
    exact ⟨f, k'', by rw [hrest, pushAll_dropNew_of_full hlevel.ge], by rw [hpop, hstacked]⟩
  · obtain ⟨f, hlevel, hstacked, hrest⟩ := first_six .overwriteTop
    obtain ⟨k'', hpop⟩ := popTimes_six (k := { f with l1 := v }) hlevel
    refine ⟨{ f with l1 := v }, k'', by rw [hrest, pushAll_overwriteTop_of_full hlevel.ge], ?_⟩
    rw [hpop, stackedAddresses_overwriteTop hlevel, hstacked, List.tail_reverse, dropLast_six]

/-! ### The registers as data locations -/

/-- Settles O41: the five addresses are those of `regAddr`, whose reads and writes are laws of every state. -/
theorem registersAreDataLocations : Obligations.RegistersAreDataLocations := by
  intro s v
  have reads : [Reg.a, .x, .y, .v, .w].map (fun r => dataValue s (regAddr r)) =
      [Reg.a, .x, .y, .v, .w].map s.regs.get :=
    List.map_congr_left fun r _ => dataValue_regAddr s r
  have keeps : ∀ a ∈ [Reg.a, .x, .y, .v, .w].map regAddr, afterRead s a = s :=
    List.forall_mem_map.2 fun r _ => afterRead_regAddr s r
  exact ⟨reads, keeps, writeData_regAddr s .a v, writeData_regAddr s .x v, writeData_regAddr s .y v,
    writeData_regAddr s .v v, writeData_regAddr s .w v⟩

/-! ### The invariant -/

/-- With no byte of RAM listed, the invariant is about program memory and the stack level. -/
theorem inv_of_ram_nil {s : State} (hram : s.ram = []) (hrom : Memory.wf s.rom) (hlevel : s.stack.level ≤ 6) :
    Inv s :=
  ⟨hram ▸ memory_wf_nil, hrom, fun _ hc => absurd (hram ▸ hc) List.not_mem_nil, hlevel⟩

/-- Settles O57: the values are those written in `State.reset`. -/
theorem resetStateValues : Obligations.ResetStateValues := ⟨rfl, rfl, rfl, rfl, rfl, rfl⟩

/-- Settles O58: no memory lists a byte, and the stack is empty. -/
theorem resetStateMeetsInvariant : Obligations.ResetStateMeetsInvariant :=
  inv_of_ram_nil rfl memory_wf_nil (Nat.zero_le 6)

/-- The invariant is about the device, the memories and the stack level alone. -/
theorem inv_congr {s t : State} (h : Inv s) (hd : t.device = s.device) (hram : t.ram = s.ram) (hrom : t.rom = s.rom)
    (hlevel : t.stack.level ≤ 6) : Inv t where
  ramCanonical := hram ▸ h.ramCanonical
  romCanonical := hrom ▸ h.romCanonical
  ramOnlyInRam := by
    rw [hram, hd]
    exact h.ramOnlyInRam
  levelInRange := hlevel

/-- The cell that a write to RAM goes to is one that the device has as RAM. -/
theorem isRamCell_of_ramCell {s : State} {a : Byte} {k : DataKind} {j : Nat} (hp : s.place a = .device k)
    (hj : ramCell s a k = some j) : IsRamCell s.device j := by
  obtain ⟨rfl, ⟨hpaged, rfl⟩ | ⟨hfixed, rfl⟩⟩ := ramCell_eq_some hj
  · have hmod : (256 * (s.bank + 1) + a.toNat) % 256 = a.toNat := by omega
    have hdiv : (256 * (s.bank + 1) + a.toNat) / 256 - 1 = s.bank := by omega
    rw [IsRamCell, if_neg (by omega), hmod, hdiv, BitVec.ofNat_toNat, BitVec.setWidth_eq]
    exact ⟨hpaged, hp⟩
  · rw [IsRamCell, if_pos a.isLt, BitVec.ofNat_toNat, BitVec.setWidth_eq, placeOf_unpaged s.device 0 s.bank hfixed]
    exact ⟨hfixed, hp⟩

theorem inv_writeData {s : State} (h : Inv s) (a v : Byte) : Inv (writeData s a v) := by
  have hlevel : (writeData s a v).stack.level ≤ 6 := by simpa using h.levelInRange
  rcases writeData_cases s a v with ⟨r, -, hw⟩ | ⟨p, -, hw⟩ | ⟨c, -, hw⟩ | ⟨k, j, hp, hj, hw⟩ | ⟨-, -, hw⟩ <;>
    rw [hw] at hlevel ⊢
  case inr.inr.inr.inl =>
    refine ⟨memory_write_wf h.ramCanonical j v, h.romCanonical, fun c hc => ?_, hlevel⟩
    obtain rfl | hc := mem_memory_write hc
    · exact isRamCell_of_ramCell hp hj
    · exact h.ramOnlyInRam c hc
  all_goals exact inv_congr h rfl rfl rfl hlevel

theorem inv_resultWritten {s : State} (h : Inv s) (i : Instr) (v : Byte) : Inv (resultWritten s i v) := by
  have hread : Inv (operandRead s i) := inv_congr h (by simp) (by simp) (by simp) (by simpa using h.levelInRange)
  rcases resultWritten_cases s i v with ⟨a, -, hr⟩ | hr <;> rw [hr]
  · exact inv_writeData hread a v
  · exact hread

theorem inv_popAndReturn {s : State} (h : Inv s) : Inv (popAndReturn s) := by
  have hl := h.levelInRange
  rcases popAndReturn_cases s with ⟨-, hr⟩ | ⟨-, hr⟩ <;> rw [hr]
  · exact inv_congr h rfl rfl rfl hl
  · exact inv_congr h rfl rfl rfl ((Nat.sub_le _ _).trans hl)

/-- Every instruction keeps the invariant. -/
theorem inv_exec {s t : State} {i : Instr} (h : Inv s) (he : exec i s = .next t) : Inv t := by
  cases effect_of_exec_next he with
  | plain v z c p _ _ _ _ =>
    have hw := inv_resultWritten h i v
    exact inv_congr hw rfl rfl rfl hw.levelInRange
  | call abc k hk => exact inv_congr h rfl rfl rfl (pushed_level_le h.levelInRange hk)
  | ret => exact inv_popAndReturn h
  | reti =>
    have hr := inv_popAndReturn h
    exact inv_congr hr rfl rfl rfl hr.levelInRange
  | stop | wait => exact inv_congr h rfl rfl rfl h.levelInRange

/-- Settles O59, over the sorts of step: a reset lists no RAM byte, an entry pushes, an instruction keeps the invariant,
and an idle step changes nothing that the invariant is about. -/
theorem stepKeepsInvariant : Obligations.StepKeepsInvariant := by
  intro s t h hst
  have past : Inv (pastBoundary s) := inv_congr h rfl rfl rfl h.levelInRange
  rcases step_cases s with ⟨-, he⟩ | ⟨n, -, he⟩ | ⟨i, -, -, he⟩ | ⟨a, -, -, he⟩ | ⟨-, he⟩ <;> rw [he] at hst
  · obtain rfl := Host.Outcome.next.inj hst
    exact inv_of_ram_nil rfl h.romCanonical (Nat.zero_le 6)
  · obtain ⟨k, hk, rfl⟩ := takeInterrupt_next hst
    exact inv_congr h rfl rfl rfl (pushed_level_le h.levelInRange hk)
  · exact inv_exec past hst
  · cases hst
  · obtain rfl := Host.Outcome.next.inj hst
    exact past

end Sys2Proof.Machine
end

section
/-! The data space and program space (20_memory.md): which byte a write changes, what the environment answers, what the
window shows, and what of it one instruction can touch. -/

namespace Sys2Proof.Machine

/-! ### What stands behind an address -/

/-- Two data addresses with the same RAM cell are one: banked cells lie above 255, fixed ones below (20_memory.md R50). -/
theorem ramCell_injective {s : State} {a b : Byte} {k l : DataKind} {j : Nat} (ha : ramCell s a k = some j)
    (hb : ramCell s b l = some j) : b = a := by
  apply BitVec.eq_of_toNat_eq
  obtain ⟨-, ⟨-, rfl⟩ | ⟨-, rfl⟩⟩ := ramCell_eq_some ha <;>
    obtain ⟨-, ⟨-, hj⟩ | ⟨-, hj⟩⟩ := ramCell_eq_some hb <;> omega

theorem ramCell_ram (s : State) (a : Byte) : ∃ j, ramCell s a .ram = some j := ⟨_, rfl⟩

theorem ramCell_eq_none {k : DataKind} (h : k ≠ .ram) (s : State) (a : Byte) : ramCell s a k = none :=
  Option.eq_none_iff_forall_ne_some.2 fun _ hj => h (ramCell_eq_some hj).1

theorem eq_regAddr_of_place {s : State} {a : Byte} {r : Reg} (h : s.place a = .core r) : a = regAddr r :=
  placeOf_eq_core.1 h

/-- The byte at an address in RAM is that of its cell (20_memory.md R54). -/
theorem storedByte_of_ramCell {s : State} {a : Byte} {k : DataKind} {j : Nat} (hp : s.place a = .device k)
    (hj : ramCell s a k = some j) : storedByte s a = some (ramByte s j) := by
  simp [storedByte, hp, hj]

theorem storedByte_of_window {s : State} {a : Byte} (hp : s.place a = .romWindow) :
    storedByte s a = fetchByte s (windowAddress s a) := by
  simp [storedByte, hp]

/-- Where the device has no RAM, no stored byte answers a read (20_memory.md R54, R56). -/
theorem storedByte_of_not_ram {s : State} {a : Byte} {k : DataKind} (hp : s.place a = .device k) (hk : k ≠ .ram) :
    storedByte s a = none := by
  simp [storedByte, hp, ramCell_eq_none hk]

theorem dataValue_of_not_ram {s : State} {a : Byte} {k : DataKind} (hp : s.place a = .device k) (hk : k ≠ .ram) :
    dataValue s a = Config.freeByte s.draws a := by
  simp [dataValue, storedByte_of_not_ram hp hk]

/-! ### A write, and the bytes that addresses show after it -/

theorem setReg_storedByte_other {s : State} {r : Reg} {b : Byte} (v : Byte) (h : b ≠ regAddr r) :
    storedByte (s.setReg r v) b = storedByte s b := by
  have hp : (s.setReg r v).place b = s.place b := rfl
  unfold storedByte
  rw [hp]
  cases hb : s.place b with
  | core q =>
    have hq : q ≠ r := fun hqr => h (hqr ▸ eq_regAddr_of_place hb)
    simp [regs_get_set_other s.regs v hq]
  | romWindow => rfl
  | device k => rfl

theorem setRam_storedByte_other {s : State} {a b : Byte} {k : DataKind} {j : Nat} (v : Byte)
    (hj : ramCell s a k = some j) (h : b ≠ a) :
    storedByte (s.setRam (s.ram.write j v)) b = storedByte s b := by
  have hp : (s.setRam (s.ram.write j v)).place b = s.place b := rfl
  have hc (l : DataKind) : ramCell (s.setRam (s.ram.write j v)) b l = ramCell s b l := ramCell_congr rfl rfl b l
  unfold storedByte
  rw [hp]
  cases hb : s.place b with
  | core q => rfl
  | romWindow => rfl
  | device l =>
    simp only [hc]
    cases hi : ramCell s b l with
    | none => rfl
    | some i =>
      have hij : i ≠ j := fun hij => h (ramCell_injective hj (hij ▸ hi))
      simp [ramByte, memory_read_write_other s.ram v hij]

/-- After a write to a core register or to RAM the address shows the byte written (20_memory.md R55). -/
theorem writeData_storedByte_same {s : State} {a : Byte} (v : Byte)
    (h : (∃ r, s.place a = .core r) ∨ s.place a = .device .ram) : storedByte (writeData s a v) a = some v := by
  obtain ⟨r, hr⟩ | hram := h
  · obtain rfl := eq_regAddr_of_place hr
    simp
  · obtain ⟨j, hj⟩ := ramCell_ram s a
    have hw : writeData s a v = s.setRam (s.ram.write j v) := by simp [writeData, hram, hj]
    have hp : (s.setRam (s.ram.write j v)).place a = .device .ram := hram
    have hc : ramCell (s.setRam (s.ram.write j v)) a .ram = some j := (ramCell_congr rfl rfl a .ram).trans hj
    rw [hw, storedByte_of_ramCell hp hc]
    simp [ramByte]

/-- A write to no control register leaves what every other address shows (20_memory.md R55). -/
theorem writeData_storedByte_other {s : State} {a b : Byte} (v : Byte) (hc : ¬ IsControlAddress s a) (h : b ≠ a) :
    storedByte (writeData s a v) b = storedByte s b := by
  rcases writeData_cases s a v with ⟨r, hp, hw⟩ | ⟨p, -, hw⟩ | ⟨c, hp, -⟩ | ⟨k, j, -, hj, hw⟩ | ⟨-, -, hw⟩
  · rw [hw]
    exact setReg_storedByte_other v (eq_regAddr_of_place hp ▸ h)
  · rw [hw]
    exact storedByte_congr b rfl rfl rfl rfl rfl rfl
  · exact absurd ⟨c, hp⟩ hc
  · rw [hw]
    exact setRam_storedByte_other v hj h
  · rw [hw]

/-- A write changes no cell of RAM but the one behind its address. -/
theorem writeData_ram_read {s : State} {a : Byte} {j : Nat} (v : Byte)
    (h : ∀ k, s.place a = .device k → ramCell s a k ≠ some j) :
    (writeData s a v).ram.read j = s.ram.read j := by
  rcases writeData_cases s a v with ⟨r, -, hw⟩ | ⟨p, -, hw⟩ | ⟨c, -, hw⟩ | ⟨k, i, hp, hi, hw⟩ | ⟨-, -, hw⟩ <;> rw [hw]
  case inr.inr.inr.inl =>
    have hji : j ≠ i := fun hji => h k hp (hji ▸ hi)
    exact memory_read_write_other s.ram v hji
  all_goals rfl

/-- A write changes no register but the one at its address. -/
theorem writeData_regs_get {s : State} {a : Byte} {r : Reg} (v : Byte) (h : a ≠ regAddr r) :
    (writeData s a v).regs.get r = s.regs.get r := by
  rcases writeData_cases s a v with ⟨q, hp, hw⟩ | ⟨p, -, hw⟩ | ⟨c, -, hw⟩ | ⟨k, j, -, -, hw⟩ | ⟨-, -, hw⟩ <;> rw [hw]
  case inl =>
    have hrq : r ≠ q := fun hrq => h (hrq ▸ eq_regAddr_of_place hp)
    exact regs_get_set_other s.regs v hrq
  all_goals rfl

/-- Settles O42. -/
theorem writeChangesOneByte : Obligations.WriteChangesOneByte := fun _ _ v =>
  ⟨writeData_storedByte_same v, fun hc _ hb => writeData_storedByte_other v hc hb⟩

/-- Settles O43: the byte written is a stored one, and a stored byte is read without side effect. -/
theorem readReturnsLatestWrite : Obligations.ReadReturnsLatestWrite := fun _ _ v h =>
  dataValue_of_stored (writeData_storedByte_same v h)

/-! ### Accesses that the environment answers -/

/-- Settles O44, clause by clause over what the address is. -/
theorem environmentAnswersOutsideAccesses : Obligations.EnvironmentAnswersOutsideAccesses := by
  intro s a v
  refine ⟨?_, ?_, ?_, ?_, ?_⟩
  · rintro (⟨p, hp⟩ | ⟨c, hp⟩) <;>
      exact ⟨dataValue_of_not_ram hp (by simp),
        by simp [afterRead, storedByte_of_not_ram hp, hp, State.emit, State.countDraw]⟩
  · rintro (hp | hp) <;>
      exact ⟨dataValue_of_not_ram hp (by simp),
        by simp [afterRead, storedByte_of_not_ram hp, hp, State.countDraw]⟩
  · rintro ⟨p, hp⟩
    simp [writeData, hp, State.emit]
  · intro c hp
    simp [writeData, hp, State.setControl, State.emit]
  · rintro (hp | hp | hp) <;> simp [writeData, hp, ramCell]

/-! ### The ROM window and program space -/

/-- The first row of the table that applies gives the window address (92_eei_decisions.md D16). -/
theorem windowAddress_of_first {s : State} {a : Byte} {l m : List WindowRow} {r : WindowRow}
    (ht : s.device.romWindow = l ++ r :: m) (hl : ∀ q ∈ l, windowRowApplies s.control a q = false)
    (hr : windowRowApplies s.control a r = true) : windowAddress s a = r.target := by
  have hf : s.device.romWindow.find? (windowRowApplies s.control a) = some r :=
    List.find?_eq_some_iff_append.2 ⟨hr, l, m, ht, fun q hq => by simp [hl q hq]⟩
  simp [windowAddress, hf]

theorem windowAddress_of_none {s : State} {a : Byte}
    (h : ∀ r ∈ s.device.romWindow, windowRowApplies s.control a r = false) :
    windowAddress s a = defaultWindowAddress s.control.drwr a := by
  obtain ⟨r, hr, hra, -⟩ | ⟨-, hw⟩ := windowAddress_cases s a
  · exact absurd hra (by simp [h r hr])
  · exact hw

/-- Settles O45: the place is fixed by the core, the byte is that of program memory, the address that of `RomWindow`. -/
theorem windowShowsProgramBytes : Obligations.WindowShowsProgramBytes := by
  intro s a w hlo hhi
  have hp : s.place a = .romWindow := placeOf_window s.device s.bank hlo hhi
  exact ⟨hp, fun hw => dataValue_of_stored ((storedByte_of_window hp).trans hw),
    fun l m r ht hl haddr hcontrol => windowAddress_of_first ht hl (windowRowApplies_eq_true.2 ⟨haddr, hcontrol⟩),
    windowAddress_of_none⟩

/-- From 800h on, the cell of program memory is the address itself (20_memory.md R51). -/
theorem romCell_of_upper (s : State) {a : PAddr} (h : 0x800 ≤ a.toNat) : romCell s a = a.toNat := if_pos h

/-- Settles O46: no bank register enters the cell of such an address. -/
theorem upperProgramHalfIsStatic : Obligations.UpperProgramHalfIsStatic := by
  intro s v a h
  simp only [fetchByte, romCell_of_upper _ h]

/-! ### What an instruction does to data -/

/-- Both states hold the same data and have had the same traffic with the environment: they agree in all that data
accesses read or write. -/
structure SameData (t s : State) : Prop where
  device : t.device = s.device
  regs : t.regs = s.regs
  ram : t.ram = s.ram
  control : t.control = s.control
  rom : t.rom = s.rom
  epoch : t.epoch = s.epoch
  draws : t.draws = s.draws
  events : t.events = s.events

theorem SameData.storedByte_eq {s t : State} (h : SameData t s) (a : Byte) : storedByte t a = storedByte s a :=
  storedByte_congr a h.device h.regs h.ram h.control h.rom h.epoch

/-- Once for all: every instruction leaves the data that reading its operand and writing one byte leave. -/
theorem sameData_of_exec_next {s t : State} {i : Instr} (h : exec i s = .next t) :
    ∃ v, SameData t (resultWritten s i v) := by
  cases effect_of_exec_next h with
  | plain v z c p _ _ _ _ => exact ⟨v, rfl, rfl, rfl, rfl, rfl, rfl, rfl, rfl⟩
  | ret =>
    obtain ⟨k, p, hr⟩ := popAndReturn_eq s
    exact ⟨0, by rw [hr]; exact ⟨rfl, rfl, rfl, rfl, rfl, rfl, rfl, rfl⟩⟩
  | reti =>
    obtain ⟨k, p, hr⟩ := popAndReturn_eq s
    exact ⟨0, by rw [returnFromInterrupt, hr]; exact ⟨rfl, rfl, rfl, rfl, rfl, rfl, rfl, rfl⟩⟩
  | call | stop | wait => exact ⟨0, rfl, rfl, rfl, rfl, rfl, rfl, rfl, rfl⟩

@[simp] theorem operandRead_regs (s : State) (i : Instr) : (operandRead s i).regs = s.regs := by
  rcases operandRead_cases s i with h | ⟨a, h⟩ <;> simp [h]

theorem place_operandRead (s : State) (i : Instr) (a : Byte) : (operandRead s i).place a = s.place a :=
  place_congr (operandRead_device s i) (operandRead_control s i) a

theorem isControlAddress_operandRead {s : State} {i : Instr} {a : Byte} :
    IsControlAddress (operandRead s i) a ↔ IsControlAddress s a := by
  simp only [IsControlAddress, place_operandRead]

theorem resultWritten_storedByte {s : State} {i : Instr} {b : Byte} (v : Byte) (hb : writtenAddress s i ≠ some b)
    (hc : ∀ a, writtenAddress s i = some a → ¬ IsControlAddress s a) :
    storedByte (resultWritten s i v) b = storedByte s b := by
  have hread : storedByte (operandRead s i) b = storedByte s b :=
    storedByte_congr b (by simp) (by simp) (by simp) (by simp) (by simp) (by simp)
  obtain ⟨a, ha, hr⟩ | hr := resultWritten_cases s i v
  · have hba : b ≠ a := fun hba => hb (hba ▸ ha)
    rw [hr, writeData_storedByte_other v (mt isControlAddress_operandRead.1 (hc a ha)) hba, hread]
  · rw [hr, hread]

theorem resultWritten_ram_read {s : State} {i : Instr} {j : Nat} (v : Byte)
    (h : ∀ a k, writtenAddress s i = some a → s.place a = .device k → ramCell s a k ≠ some j) :
    (resultWritten s i v).ram.read j = s.ram.read j := by
  obtain ⟨a, ha, hr⟩ | hr := resultWritten_cases s i v
  · have hcell (k : DataKind) (hp : (operandRead s i).place a = .device k) :
        ramCell (operandRead s i) a k ≠ some j := by
      rw [ramCell_congr (operandRead_device s i) (operandRead_control s i)]
      exact h a k ha (place_operandRead s i a ▸ hp)
    rw [hr, writeData_ram_read v hcell, operandRead_ram]
  · rw [hr, operandRead_ram]

theorem resultWritten_regs_get {s : State} {i : Instr} {r : Reg} (v : Byte)
    (h : writtenAddress s i ≠ some (regAddr r)) : (resultWritten s i v).regs.get r = s.regs.get r := by
  obtain ⟨a, ha, hr⟩ | hr := resultWritten_cases s i v
  · have har : a ≠ regAddr r := fun har => h (har ▸ ha)
    rw [hr, writeData_regs_get v har, operandRead_regs]
  · rw [hr, operandRead_regs]

/-- Settles O36: what one write after the read of the operand leaves unchanged, the instruction leaves unchanged. -/
theorem instructionWritesOneByte : Obligations.InstructionWritesOneByte := by
  intro s t i h
  obtain ⟨v, hd⟩ := sameData_of_exec_next h
  exact ⟨fun b hb hc => (hd.storedByte_eq b).trans (resultWritten_storedByte v hb hc),
    fun j hj => hd.ram ▸ resultWritten_ram_read v hj, fun r hr => hd.regs ▸ resultWritten_regs_get v hr⟩

theorem resultWritten_draws (s : State) (i : Instr) (v : Byte) :
    (resultWritten s i v).draws = (operandRead s i).draws := by
  obtain ⟨a, -, hr⟩ | hr := resultWritten_cases s i v <;> simp [hr]

/-- After the read of the operand the environment is told of at most one write, at the written address. -/
theorem resultWritten_events (s : State) (i : Instr) (v : Byte) :
    (resultWritten s i v).events = (operandRead s i).events ∨
      ∃ a w, writtenAddress s i = some a ∧ (resultWritten s i v).events = .write a w :: (operandRead s i).events := by
  obtain ⟨a, ha, hr⟩ | hr := resultWritten_cases s i v
  · rw [hr]
    exact (writeData_events (operandRead s i) a v).imp id fun hw => ⟨a, v, ha, hw⟩
  · exact .inl (congrArg State.events hr)

/-- Settles O39: the traffic is that of reading the operand and of one write. -/
theorem instructionTrafficIsItsAccesses : Obligations.InstructionTrafficIsItsAccesses := by
  intro s t i h
  obtain ⟨v, hd⟩ := sameData_of_exec_next h
  have draws : t.draws = (operandRead s i).draws := hd.draws.trans (resultWritten_draws s i v)
  have events := resultWritten_events s i v
  rw [← hd.events] at events
  unfold operandRead at draws events
  cases ho : operandAddress s i <;> simp only [ho] at draws events <;> exact ⟨draws, events⟩

/-! ### The program and the device -/

/-- Settles O60, over the sorts of step: of them an instruction alone needs its own frame, O38. -/
theorem stepKeepsProgramAndDevice : Obligations.StepKeepsProgramAndDevice := by
  intro s t h
  rcases step_cases s with ⟨-, he⟩ | ⟨n, -, he⟩ | ⟨i, -, -, he⟩ | ⟨a, -, -, he⟩ | ⟨-, he⟩ <;> rw [he] at h
  · obtain rfl := Host.Outcome.next.inj h
    exact ⟨rfl, rfl⟩
  · obtain ⟨k, -, rfl⟩ := takeInterrupt_next h
    exact ⟨rfl, rfl⟩
  · obtain ⟨-, -, -, -, device, rom, -, -⟩ := instructionKeepsTheRest (pastBoundary s) t i h
    exact ⟨rom, device⟩
  · cases h
  · obtain rfl := Host.Outcome.next.inj h
    exact ⟨rfl, rfl⟩

end Sys2Proof.Machine
end

section
/-! The encoding (30_encoding.md): what the written forms and the illegal opcodes stand for, the opcode map entry by
entry, and the two directions between bytes and instructions. -/

namespace Sys2Proof.Machine

/-! ### The rows of the opcode table -/

theorem hasOpcode_expand (i : Instr) : i.expand.hasOpcode = true := by cases i <;> rfl

theorem isLegal_of_not_hasOpcode {i : Instr} (h : i.hasOpcode = false) : i.isLegal = true := by
  have hw : i.rowSort = .written := by simpa [Instr.hasOpcode] using h
  simp [Instr.isLegal, hw]

/-- The five instructions that are not plain have opcodes of their own. -/
theorem isPlain_of_not_hasOpcode {i : Instr} (h : i.hasOpcode = false) : isPlain i = true := by
  cases hp : isPlain i with
  | true => rfl
  | false => obtain ⟨abc, rfl⟩ | rfl | rfl | rfl | rfl := isPlain_eq_false hp <;> cases h

/-- An instruction with an opcode of its own is written for no other one. -/
theorem expand_of_hasOpcode {i : Instr} (h : i.hasOpcode = true) : i.expand = i := by
  cases i with
  | nop | clrA | clrDir | slaA | incA | decA | ldAA | addAA | addAX | addAY | addAV | addAW | andAA | andAX | andAY
  | andAV | andAW | cpAA | cpAX | cpAY | cpAV | cpAW | subAA | subAX | subAY | subAV | subAW | resA | setA | ldiX | clrX
  | ldiY | clrY | ldiV | clrV | ldiW | clrW => cases h
  | _ => rfl

/-- The twelve illegal opcodes (30_encoding.md R95). -/
def illegalOpcodes : List Byte :=
  [0x05#8, 0x25#8, 0x45#8, 0x65#8, 0x85#8, 0xA5#8, 0xC5#8, 0xE5#8, 0x77#8, 0x97#8, 0xF7#8, 0x8D#8]

/-- An instruction that is not legal is one of the illegal opcodes, and stops the machine under that name. -/
theorem encode_exec_of_not_isLegal {i : Instr} (h : i.isLegal = false) :
    ∃ op ∈ illegalOpcodes, encode i = [op] ∧ ∀ s, exec i s = .fault (.illegalOpcode op) := by
  cases i with
  | illegal05 | illegal25 | illegal45 | illegal65 | illegal85 | illegalA5 | illegalC5 | illegalE5 | illegal77
  | illegal97 | illegalF7 | illegal8D => exact ⟨_, by decide, rfl, fun _ => rfl⟩
  | _ => cases h

/-- Settles O10: the byte in the encoding and the byte in the fault are the same one of the twelve. -/
theorem illegalOpcodeStops : Obligations.IllegalOpcodeStops := by
  intro s i h
  obtain ⟨op, -, he, hx⟩ := encode_exec_of_not_isLegal h
  exact ⟨op, he, hx s⟩

/-- Settles O34: the expansion of a written form is plain and legal, so it completes, and the two execute alike. -/
theorem writtenFormsActAsExpansion : Obligations.WrittenFormsActAsExpansion := by
  intro s i h
  obtain ⟨v, z, c, p, he, -⟩ := exec_shape s i.expand (wellFormed_expand (isLegal_of_not_hasOpcode h))
    (isPlain_expand i ▸ isPlain_of_not_hasOpcode h)
  exact ⟨_, exec_expand i s ▸ he, he⟩

/-! ### Cases of a bit field -/

/-- A byte is its row and its column in the opcode map (30_encoding.md R94). -/
theorem byte_eq_row_column (op : Byte) : ∃ row column : BitVec 4, op = row ++ column :=
  ⟨op.extractLsb' 4 4, op.extractLsb' 0 4, (BitVec.extractLsb'_append_extractLsb' (w := 4) (len := 4)).symm⟩

@[simp] theorem column_append (row column : BitVec 4) : (row ++ column : Byte).extractLsb' 0 4 = column :=
  BitVec.extractLsb'_append_eq_right

@[simp] theorem row_append (row column : BitVec 4) : (row ++ column : Byte).extractLsb' 4 4 = row :=
  BitVec.extractLsb'_append_eq_left

theorem bitNo_cases {P : BitNo → Prop} (b0 : P 0#3) (b1 : P 1#3) (b2 : P 2#3) (b3 : P 3#3) (b4 : P 4#3) (b5 : P 5#3)
    (b6 : P 6#3) (b7 : P 7#3) (b : BitNo) : P b := by
  obtain ⟨n⟩ := b
  fin_cases n <;> assumption

theorem nibble_cases {P : BitVec 4 → Prop} (x0 : P 0x0#4) (x1 : P 0x1#4) (x2 : P 0x2#4) (x3 : P 0x3#4) (x4 : P 0x4#4)
    (x5 : P 0x5#4) (x6 : P 0x6#4) (x7 : P 0x7#4) (x8 : P 0x8#4) (x9 : P 0x9#4) (xA : P 0xA#4) (xB : P 0xB#4)
    (xC : P 0xC#4) (xD : P 0xD#4) (xE : P 0xE#4) (xF : P 0xF#4) (n : BitVec 4) : P n := by
  obtain ⟨n⟩ := n
  fin_cases n <;> assumption

/-! ### The extended forms (30_encoding.md R90) -/

theorem instrLength_column1 (row : BitVec 4) : instrLength (row ++ 0x1#4) = 2 := by revert row; decide

theorem instrLength_column9 (row : BitVec 4) : instrLength (row ++ 0x9#4) = 2 := by revert row; decide

theorem decodeInstr_column1 (row : BitVec 4) (b1 b2 : Byte) : decodeInstr (row ++ 0x1#4) b1 b2 = .call (b1 ++ row) := by
  simp only [decodeInstr, extendedAddress, column_append, row_append]

theorem decodeInstr_column9 (row : BitVec 4) (b1 b2 : Byte) : decodeInstr (row ++ 0x9#4) b1 b2 = .jp (b1 ++ row) := by
  simp only [decodeInstr, extendedAddress, column_append, row_append]

theorem encode_call_append (row : BitVec 4) (b1 : Byte) : encode (.call (b1 ++ row)) = [row ++ 0x1#4, b1] := by
  rw [encode, BitVec.extractLsb'_append_eq_left, BitVec.extractLsb'_append_eq_right (w := 8) (w' := 4)]

theorem encode_jp_append (row : BitVec 4) (b1 : Byte) : encode (.jp (b1 ++ row)) = [row ++ 0x9#4, b1] := by
  rw [encode, BitVec.extractLsb'_append_eq_left, BitVec.extractLsb'_append_eq_right (w := 8) (w' := 4)]

/-- A 12-bit address is the second byte followed by the row of the first. -/
theorem address_eq_byte_row (abc : PAddr) : ∃ (b1 : Byte) (row : BitVec 4), abc = b1 ++ row :=
  ⟨abc.extractLsb' 4 8, abc.extractLsb' 0 4, (BitVec.extractLsb'_append_extractLsb' (w := 8) (len := 4)).symm⟩

/-! ### The opcode map -/

/-- Every entry of the opcode map, with any operand bytes, encodes to its own opcode and as many of the operand bytes as
its length says. -/
theorem encode_decodeInstr (op b1 b2 : Byte) :
    encode (decodeInstr op b1 b2) = op :: [b1, b2].take (instrLength op - 1) := by
  -- CALL and JP spread their operand over both bytes; elsewhere the opcode alone settles the entry.
  obtain ⟨row, column, rfl⟩ := byte_eq_row_column op
  induction column using nibble_cases with
  | x1 => rw [decodeInstr_column1, encode_call_append, instrLength_column1]; rfl
  | x9 => rw [decodeInstr_column9, encode_jp_append, instrLength_column9]; rfl
  | _ => induction row using nibble_cases <;> rfl

/-- The operand bytes do not enter the choice of the instruction (30_encoding.md R80). -/
theorem ctorIdx_decodeInstr (op b1 b2 c1 c2 : Byte) :
    (decodeInstr op b1 b2).ctorIdx = (decodeInstr op c1 c2).ctorIdx := by
  have hD : (decodeColumnD op b1 b2).ctorIdx = (decodeColumnD op c1 c2).ctorIdx := by
    unfold decodeColumnD; split <;> rfl
  have hI : (decodeImmediate op b1).ctorIdx = (decodeImmediate op c1).ctorIdx := by
    unfold decodeImmediate; split <;> rfl
  have hF : (decodeDirect op b1).ctorIdx = (decodeDirect op c1).ctorIdx := by
    unfold decodeDirect; split <;> rfl
  unfold decodeInstr
  split
  -- Column by column: 3 and B choose by op[4], D, 7 and F have decoders of their own; the rest
  -- do not choose by an operand byte at all.
  case h_11 | h_12 => split <;> rfl
  case h_14 => exact hD
  case h_15 =>
    split
    · exact hI
    · rfl
  case h_16 =>
    split
    · exact hF
    · rfl
  all_goals rfl

/-! ### Lists of bytes -/

/-- What the decoder gives comes from the first byte and the operand bytes that its length asks for. -/
theorem decode_eq_ok {bytes rest : List Byte} {i : Instr} (h : decode bytes = .ok (i, rest)) :
    ∃ op b1 b2, i = decodeInstr op b1 b2 ∧ bytes = op :: ([b1, b2].take (instrLength op - 1) ++ rest) := by
  cases bytes with
  | nil => cases h
  | cons op bytes =>
    simp only [decode] at h
    split at h
    case h_1 hl => cases h; exact ⟨op, 0#8, 0#8, rfl, by rw [hl]; rfl⟩
    case h_2 b1 _ hl => cases h; exact ⟨op, b1, 0#8, rfl, by rw [hl]; rfl⟩
    case h_3 b1 b2 _ hl => cases h; exact ⟨op, b1, b2, rfl, by rw [hl]; rfl⟩
    case h_4 => cases h

/-- Bytes after the ones that decode are left over. -/
theorem decode_append {bytes rest : List Byte} {i : Instr} (h : decode bytes = .ok (i, rest)) (more : List Byte) :
    decode (bytes ++ more) = .ok (i, rest ++ more) := by
  cases bytes with
  | nil => cases h
  | cons op bytes =>
    simp only [decode] at h
    split at h
    case h_1 hl => cases h; simp [decode, hl]
    case h_2 hl => cases h; simp [decode, hl]
    case h_3 hl => cases h; simp [decode, hl]
    case h_4 => cases h

/-- The bytes of an instruction decode to the instruction it is written for, for a row of any sort. -/
theorem decode_encode (i : Instr) : decode (encode i) = .ok (i.expand, []) := by
  cases i with
  | jrnz e | jrnc e | jrz e | jrc e => revert e; decide
  | call abc =>
    obtain ⟨b1, row, rfl⟩ := address_eq_byte_row abc
    rw [encode_call_append]
    simp [decode, instrLength_column1, decodeInstr_column1, Instr.expand]
  | jp abc =>
    obtain ⟨b1, row, rfl⟩ := address_eq_byte_row abc
    rw [encode_jp_append]
    simp [decode, instrLength_column9, decodeInstr_column9, Instr.expand]
  | jrr b | jrs b | res b | set b | resA b | setA b => induction b using bitNo_cases <;> rfl
  | incReg r | ldAReg r | decReg r | ldRegA r => cases r <;> rfl
  | ldAInd ptr | cpAInd ptr | addAInd ptr | incInd ptr | ldIndA ptr | andAInd ptr | subAInd ptr | decInd ptr =>
    cases ptr <;> rfl
  | _ => rfl

theorem decode_encode_append (i : Instr) (rest : List Byte) : decode (encode i ++ rest) = .ok (i.expand, rest) :=
  decode_append (decode_encode i) rest

/-- Settles O1: a well-formed instruction is its own expansion. -/
theorem decodeOfEncodeIsIdentity : Obligations.DecodeOfEncodeIsIdentity := by
  intro i rest h
  obtain ⟨-, ho⟩ : i.isLegal = true ∧ i.hasOpcode = true := by simpa [WellFormed] using h
  rw [decode_encode_append, expand_of_hasOpcode ho]

/-- Settles O3: a written form is legal, and its bytes decode to its expansion as those of any row do. -/
theorem writtenFormsEncodeTheirExpansion : Obligations.WrittenFormsEncodeTheirExpansion := fun i rest h =>
  ⟨(encode_expand i).symm, wellFormed_expand (isLegal_of_not_hasOpcode h), decode_encode_append i rest⟩

/-- Settles O2: the bytes are those of the first byte's entry in the opcode map, and what they decode to is an
expansion, which has an opcode of its own. -/
theorem encodeOfDecodeIsIdentity : Obligations.EncodeOfDecodeIsIdentity := by
  intro bytes rest i h
  obtain ⟨op, b1, b2, rfl, rfl⟩ := decode_eq_ok h
  rw [← List.cons_append, ← encode_decodeInstr] at h ⊢
  obtain ⟨hi, -⟩ := Prod.mk.inj (Except.ok.inj ((decode_encode_append _ rest).symm.trans h))
  exact ⟨rfl, hi ▸ hasOpcode_expand _⟩

/-- Settles O4: both lists give the first byte's entry in the opcode map, and both lose its length. -/
theorem firstByteDecidesInstruction : Obligations.FirstByteDecidesInstruction := by
  intro op xs ys rx ry i j hx hy
  obtain ⟨_, b1, b2, rfl, ex⟩ := decode_eq_ok hx
  obtain ⟨_, c1, c2, rfl, ey⟩ := decode_eq_ok hy
  obtain ⟨rfl, rfl⟩ := List.cons.inj ex
  obtain ⟨rfl, rfl⟩ := List.cons.inj ey
  refine ⟨ctorIdx_decodeInstr op b1 b2 c1 c2, ?_⟩
  simp only [List.length_append, List.length_take, List.length_cons, List.length_nil]
  omega

/-- Settles O5: an instruction that is not legal encodes to one of the twelve, and the entries of the twelve are not. -/
theorem twelveFirstBytesAreIllegal : Obligations.TwelveFirstBytesAreIllegal := by
  intro op b1 b2
  constructor
  · intro h
    obtain ⟨_, hmem, he, -⟩ := encode_exec_of_not_isLegal h
    obtain ⟨rfl, -⟩ := List.cons.inj (he.symm.trans (encode_decodeInstr op b1 b2))
    exact hmem
  · intro h
    simp only [List.mem_cons, List.not_mem_nil, or_false] at h
    obtain rfl | rfl | rfl | rfl | rfl | rfl | rfl | rfl | rfl | rfl | rfl | rfl := h <;> rfl

/-- Settles O6: the conditions are compared with the length at each of the 256 first bytes. -/
theorem lengthFollowsFirstByte : Obligations.LengthFollowsFirstByte := by
  unfold Obligations.LengthFollowsFirstByte
  decide

/-- Settles O7: the decoder runs on each word. -/
theorem sampleWordsDecode : Obligations.SampleWordsDecode :=
  ⟨rfl, rfl, rfl, rfl, rfl, rfl, rfl, rfl, rfl, rfl, rfl⟩

end Sys2Proof.Machine
end

section
/-! The load and store instructions (40_load_store.md): what loading and storing A do at an operand of any form, and from
it the effect of each instruction. -/

namespace Sys2Proof.Machine

/-! ### The terms of the statements, by the operations of the model -/

/-- A short-direct register stands at its own data address (30_encoding.md R92). -/
theorem shortAddress_eq (r : ShortReg) : shortAddress r = regAddr (shortReg r) := by cases r <;> rfl

/-- A pointer's own data address holds what the pointer register holds (30_encoding.md R92). -/
theorem pointerValue_eq (s : State) (p : Pointer) : pointerValue s p = s.regs.get (pointerReg p) := by
  have address : 0x80#8 + p.code.setWidth 8 = regAddr (pointerReg p) := by cases p <;> rfl
  rw [pointerValue, address, dataValue_regAddr]

theorem accResult_eq (t : State) (v : Byte) (z c : Bool) (n : PAddr) :
    accResult t v z c n = ((t.setReg .a v).setZC z c).advance n := rfl

theorem flagResult_eq (t : State) (z c : Bool) (n : PAddr) : flagResult t z c n = (t.setZC z c).advance n := rfl

@[simp] theorem setReg_cFlag (s : State) (r : Reg) (v : Byte) : (s.setReg r v).cFlag = s.cFlag := rfl

/-- An instruction has the bytes and the effect of the one it is written for (30_encoding.md R99). -/
theorem encode_exec_of_expand {i j : Instr} (h : i.expand = j) (s : State) :
    encode i = encode j ∧ exec i s = exec j s :=
  h ▸ ⟨(encode_expand i).symm, exec_expand i s⟩

/-! ### Loading and storing A -/

/-- A load, whatever the form of its operand: Z from the byte read, and C as it was before the read. -/
theorem loadA_eq (l : Location) (s : State) :
    loadA l s = .next (accResult (afterRead s (effectiveAddress s l)) (dataValue s (effectiveAddress s l))
      (decide (dataValue s (effectiveAddress s l) = 0#8)) s.cFlag (formLength l)) := by
  rw [loadA, afterOperand, operandValue, setZ_eq, setReg_cFlag, afterRead_cFlag, isZero_eq, accResult_eq]

/-- A store, whatever the form of its operand: Z from A, and C as it was before the write. -/
theorem storeA_eq (l : Location) (s : State) :
    storeA l s = .next (flagResult (writeData s (effectiveAddress s l) s.regs.a) (decide (s.regs.a = 0#8)) s.cFlag
      (formLength l)) := by
  rw [storeA, setZ_eq, writeData_cFlag, isZero_eq, flagResult_eq]

/-- Settles O12: each instruction is the load from its form of operand. -/
theorem loadsPutDataInA : Obligations.LoadsPutDataInA := by
  refine ⟨fun s r => ?short, fun s p => ?indirect, fun s i rr h => ?direct, rfl, rfl⟩
  case short =>
    have effect := loadA_eq (.short r) s
    -- A core register is read without side effect, so the state after the read is `s`.
    rw [effectiveAddress_short, afterRead_regAddr, ← shortAddress_eq] at effect
    exact effect
  case indirect => exact pointerValue_eq s p ▸ loadA_eq (.indirect p) s
  case direct =>
    obtain ⟨bytes, effect⟩ := encode_exec_of_expand h s
    exact ⟨bytes, effect.trans (loadA_eq (.direct rr) s)⟩

/-- Settles O13: each instruction is the store to its form of operand. -/
theorem storesWriteA : Obligations.StoresWriteA := by
  refine ⟨fun s r => ?short, fun s p => ?indirect, fun s rr => ?direct, rfl, rfl, fun _ => rfl⟩
  case short => exact shortAddress_eq r ▸ storeA_eq (.short r) s
  case indirect => exact pointerValue_eq s p ▸ storeA_eq (.indirect p) s
  case direct => exact storeA_eq (.direct rr) s

/-! ### Loading an immediate -/

/-- `LDI A,nn`: Z from the immediate, and C as it was (40_load_store.md R116). -/
theorem execLdiA_eq (nn : Byte) (s : State) :
    execLdiA nn s = .next (accResult s nn (decide (nn = 0#8)) s.cFlag 2#12) := by
  rw [execLdiA, setZ_eq, setReg_cFlag, isZero_eq, accResult_eq]

/-- `LDI rr,nn`: the write leaves the pc, which moves on by 3 (40_load_store.md R117). -/
theorem execLdiDir_eq (rr nn : Byte) (s : State) :
    execLdiDir rr nn s = .next { writeData s rr nn with pc := s.pc + 3#12 } := by
  rw [execLdiDir, advance_eq, writeData_pc, State.setPc]

/-- Settles O14: LDI A,nn stands alone, and LDI rr,nn has written forms. -/
theorem loadImmediateEffect : Obligations.LoadImmediateEffect := by
  refine ⟨fun s nn => execLdiA_eq nn s, fun s i rr nn h => ?_, fun _ => rfl⟩
  obtain ⟨bytes, effect⟩ := encode_exec_of_expand h s
  exact ⟨bytes, effect.trans (execLdiDir_eq rr nn s)⟩

end Sys2Proof.Machine
end

section
/-! The arithmetic and logic instructions (41_arithmetic_logic.md): the operations on bytes as numbers, what an
operation on A and a change of a data location do at an operand of any form, and from both the effect of each
instruction. -/

namespace Sys2Proof.Machine

/-! ### The operations on bytes, as numbers -/

/-- A result has Z exactly if its number is 0. -/
theorem isZero_toNat (v : Byte) : isZero v = decide (v.toNat = 0) := decide_eq_decide.2 BitVec.toNat_eq

/-- A sum of bytes is taken modulo 256 (41_arithmetic_logic.md R153). -/
theorem byte_add_eq (a v : Byte) : a + v = BitVec.ofNat 8 ((a.toNat + v.toNat) % 256) :=
  BitVec.eq_of_toNat_eq (by simp)

/-- A difference of bytes is taken modulo 256 (41_arithmetic_logic.md R154). -/
theorem byte_sub_eq (a v : Byte) : a - v = BitVec.ofNat 8 ((256 + a.toNat - v.toNat) % 256) := by bv_omega

/-- Bit 0 of the rotated byte is the old carry, the others are the old bits 6 to 0 (41_arithmetic_logic.md R148). -/
theorem rlc8_value_toNat (c : Bool) (a : Byte) : (rlc8 c a).value.toNat = a.toNat * 2 % 256 + c.toNat := by
  have shifted : (rlc8 c a).value.toNat = a.toNat % 128 * 2 + c.toNat := BitVec.toNat_concat (a.extractLsb' 0 7) c
  omega

/-! ### An operation on A -/

/-- An operation on A and the byte that a pointer points to, which is read first (30_encoding.md R86). -/
theorem aluA_indirect (f : State → Byte → Byte → AluResult) (p : Pointer) (s : State) :
    aluA f (.indirect p) s =
      resultToA (afterRead s (pointerValue s p)) (f s s.regs.a (dataValue s (pointerValue s p))) 1#12 := by
  rw [pointerValue_eq]
  rfl

/-- An operation on A and the byte at a direct address, which is read first (30_encoding.md R91). -/
theorem aluA_direct (f : State → Byte → Byte → AluResult) (rr : Byte) (s : State) :
    aluA f (.direct rr) s = resultToA (afterRead s rr) (f s s.regs.a (dataValue s rr)) 2#12 := rfl

/-- `Add8` to A: carry and zero bit are those of the sum of the numbers (41_arithmetic_logic.md R153). -/
theorem resultToA_add8 (t : State) (a v : Byte) (n : PAddr) :
    resultToA t (add8 a v) n =
      .next (accResult t (BitVec.ofNat 8 ((a.toNat + v.toNat) % 256)) (decide ((a.toNat + v.toNat) % 256 = 0))
        (decide (256 ≤ a.toNat + v.toNat)) n) := by
  rw [resultToA, add8, isZero_toNat, BitVec.toNat_add, byte_add_eq, accResult_eq]

/-- AND to A: the carry that comes in stays (41_arithmetic_logic.md R133). -/
theorem resultToA_and8 (t : State) (c : Bool) (a v : Byte) (n : PAddr) :
    resultToA t (and8 c a v) n = .next (accResult t (a &&& v) (decide (a &&& v = 0#8)) c n) := by
  rw [resultToA, and8, isZero_eq, accResult_eq]

/-- `Sub8` to A: Z for equal operands, C for a borrow (41_arithmetic_logic.md R154). -/
theorem resultToA_sub8 (t : State) (a v : Byte) (n : PAddr) :
    resultToA t (sub8 a v) n =
      .next (accResult t (BitVec.ofNat 8 ((256 + a.toNat - v.toNat) % 256)) (decide (a = v))
        (decide (a.toNat < v.toNat)) n) := by
  rw [resultToA, sub8, byte_sub_eq, accResult_eq, beq_eq_decide]

/-- COM to A: the old bit 7 goes to C (41_arithmetic_logic.md R138). -/
theorem resultToA_com8 (t : State) (a : Byte) (n : PAddr) :
    resultToA t (com8 a) n = .next (accResult t (a ^^^ 0xFF#8) (decide (a ^^^ 0xFF#8 = 0#8)) (a.getLsbD 7) n) := by
  rw [resultToA, com8, isZero_eq, accResult_eq]

/-- RLC to A: twice the byte plus the carry that comes in, the old bit 7 to C (41_arithmetic_logic.md R148). -/
theorem resultToA_rlc8 (t : State) (c : Bool) (a : Byte) (n : PAddr) :
    resultToA t (rlc8 c a) n =
      .next (accResult t (BitVec.ofNat 8 (a.toNat * 2 % 256 + c.toNat)) (decide (a.toNat * 2 % 256 + c.toNat = 0))
        (a.getLsbD 7) n) := by
  have value : (rlc8 c a).value = BitVec.ofNat 8 (a.toNat * 2 % 256 + c.toNat) := by
    rw [← rlc8_value_toNat, BitVec.ofNat_toNat, BitVec.setWidth_eq]
  have zero : (rlc8 c a).z = decide (a.toNat * 2 % 256 + c.toNat = 0) := by
    rw [← rlc8_value_toNat, ← isZero_toNat]
    rfl
  rw [resultToA, value, zero, accResult_eq]
  rfl

/-- `Sub8` to the flags alone (41_arithmetic_logic.md R139, R154). -/
theorem resultToFlags_sub8 (t : State) (a v : Byte) (n : PAddr) :
    resultToFlags t (sub8 a v) n = .next (flagResult t (decide (a = v)) (decide (a.toNat < v.toNat)) n) := by
  rw [resultToFlags, sub8, beq_eq_decide, flagResult_eq]

/-- Settles O15: each form puts the result of `Add8` in A. -/
theorem additionsToA : Obligations.AdditionsToA := by
  refine ⟨fun s p => ?indirect, fun s i rr h => ?direct, fun s nn => ?immediate, rfl, fun _ => rfl⟩
  case indirect => exact (aluA_indirect (fun _ => add8) p s).trans (resultToA_add8 ..)
  case direct =>
    obtain ⟨bytes, effect⟩ := encode_exec_of_expand h s
    exact ⟨bytes, effect.trans (resultToA_add8 ..)⟩
  case immediate => exact resultToA_add8 ..

/-- Settles O16: each form puts the bitwise AND in A. -/
theorem conjunctionsWithA : Obligations.ConjunctionsWithA := by
  refine ⟨fun s p => ?indirect, fun s i rr h => ?direct, fun s nn => ?immediate, rfl, fun _ => rfl⟩
  case indirect => exact (aluA_indirect (fun t => and8 t.cFlag) p s).trans (resultToA_and8 ..)
  case direct =>
    obtain ⟨bytes, effect⟩ := encode_exec_of_expand h s
    exact ⟨bytes, effect.trans (resultToA_and8 ..)⟩
  case immediate => exact resultToA_and8 ..

/-- Settles O17: each form puts the result of `Sub8` in A. -/
theorem subtractionsFromA : Obligations.SubtractionsFromA := by
  refine ⟨fun s p => ?indirect, fun s i rr h => ?direct, fun s nn => ?immediate⟩
  case indirect => exact (aluA_indirect (fun _ => sub8) p s).trans (resultToA_sub8 ..)
  case direct =>
    obtain ⟨bytes, effect⟩ := encode_exec_of_expand h s
    exact ⟨bytes, effect.trans (resultToA_sub8 ..)⟩
  case immediate => exact resultToA_sub8 ..

/-- Settles O18: each form keeps the flags of `Sub8` alone. -/
theorem comparisonsWithA : Obligations.ComparisonsWithA := by
  refine ⟨fun s p => ?indirect, fun s i rr h => ?direct, fun s nn => ?immediate⟩
  case indirect => exact pointerValue_eq s p ▸ resultToFlags_sub8 ..
  case direct =>
    obtain ⟨bytes, effect⟩ := encode_exec_of_expand h s
    exact ⟨bytes, effect.trans (resultToFlags_sub8 ..)⟩
  case immediate => exact resultToFlags_sub8 ..

/-- Settles O21: COM and RLC have A as their one operand. -/
theorem complementAndRotateA : Obligations.ComplementAndRotateA :=
  ⟨fun _ => resultToA_com8 .., fun _ => resultToA_rlc8 .., rfl, rfl⟩

/-! ### A change of a data location -/

/-- A change of a data location, whatever the form of its operand: one read, one write, Z from the new byte, and C as it
was before. -/
theorem modifyData_eq (f : Byte → Byte) (l : Location) (s : State) :
    modifyData f l s =
      .next (flagResult
        (writeData (afterRead s (effectiveAddress s l)) (effectiveAddress s l) (f (dataValue s (effectiveAddress s l))))
        (isZero (f (dataValue s (effectiveAddress s l)))) s.cFlag (formLength l)) := by
  rw [modifyData, afterOperand, operandValue, setZ_eq, writeData_cFlag, afterRead_cFlag, flagResult_eq]

/-- A change of a core register: the read of it has no side effect (20_memory.md R56). -/
theorem modifyData_short (f : Byte → Byte) (r : ShortReg) (s : State) :
    modifyData f (.short r) s =
      .next (flagResult (writeData s (shortAddress r) (f (dataValue s (shortAddress r))))
        (isZero (f (dataValue s (shortAddress r)))) s.cFlag 1#12) := by
  rw [modifyData_eq, effectiveAddress_short, afterRead_regAddr, formLength_short, shortAddress_eq]

/-- A change of the location that a pointer points to, not of the pointer (30_encoding.md R86). -/
theorem modifyData_indirect (f : Byte → Byte) (p : Pointer) (s : State) :
    modifyData f (.indirect p) s =
      .next (flagResult
        (writeData (afterRead s (pointerValue s p)) (pointerValue s p) (f (dataValue s (pointerValue s p))))
        (isZero (f (dataValue s (pointerValue s p)))) s.cFlag 1#12) := by
  rw [modifyData_eq, effectiveAddress_indirect, formLength_indirect, pointerValue_eq]

theorem modifyData_direct (f : Byte → Byte) (rr : Byte) (s : State) :
    modifyData f (.direct rr) s =
      .next (flagResult (writeData (afterRead s rr) rr (f (dataValue s rr))) (isZero (f (dataValue s rr))) s.cFlag
        2#12) := by
  rw [modifyData_eq, effectiveAddress_direct, formLength_direct]

theorem byte_inc_eq (v : Byte) : v + 1#8 = BitVec.ofNat 8 ((v.toNat + 1) % 256) := byte_add_eq v 1#8

/-- 255 becomes 0 (41_arithmetic_logic.md R145). -/
theorem isZero_inc (v : Byte) : isZero (v + 1#8) = decide ((v.toNat + 1) % 256 = 0) := by
  rw [isZero_toNat, BitVec.toNat_add]
  rfl

/-- 0 becomes 255 (41_arithmetic_logic.md R142). -/
theorem byte_dec_eq (v : Byte) : v - 1#8 = BitVec.ofNat 8 ((v.toNat + 255) % 256) := by bv_omega

/-- 1 alone becomes 0 (41_arithmetic_logic.md R142). -/
theorem isZero_dec (v : Byte) : isZero (v - 1#8) = decide (v.toNat = 1) := by
  have one : v - 1#8 = 0#8 ↔ v.toNat = 1 := by bv_omega
  rw [isZero_eq, decide_eq_decide.2 one]

/-- Settles O19: each form changes its location by plus 1. -/
theorem incrementsOfData : Obligations.IncrementsOfData := by
  refine ⟨fun s r => ?short, fun s p => ?indirect, fun s i rr h => ?direct, rfl, rfl⟩
  case short =>
    rw [← byte_inc_eq, ← isZero_inc]
    exact modifyData_short (fun v => v + 1#8) r s
  case indirect =>
    rw [← byte_inc_eq, ← isZero_inc]
    exact modifyData_indirect (fun v => v + 1#8) p s
  case direct =>
    obtain ⟨bytes, effect⟩ := encode_exec_of_expand h s
    rw [← byte_inc_eq, ← isZero_inc]
    exact ⟨bytes, effect.trans (modifyData_direct (fun v => v + 1#8) rr s)⟩

/-- Settles O20: each form changes its location by minus 1. -/
theorem decrementsOfData : Obligations.DecrementsOfData := by
  refine ⟨fun s r => ?short, fun s p => ?indirect, fun s i rr h => ?direct, rfl, rfl⟩
  case short =>
    rw [← byte_dec_eq, ← isZero_dec]
    exact modifyData_short (fun v => v - 1#8) r s
  case indirect =>
    rw [← byte_dec_eq, ← isZero_dec]
    exact modifyData_indirect (fun v => v - 1#8) p s
  case direct =>
    obtain ⟨bytes, effect⟩ := encode_exec_of_expand h s
    rw [← byte_dec_eq, ← isZero_dec]
    exact ⟨bytes, effect.trans (modifyData_direct (fun v => v - 1#8) rr s)⟩

/-! ### Rotations of C and A -/

/-- Rotating twice is rotating by the sum, at every width. -/
theorem rotateLeft_rotateLeft {w : Nat} (x : BitVec w) (m n : Nat) :
    (x.rotateLeft m).rotateLeft n = x.rotateLeft (m + n) := by
  apply BitVec.eq_of_getMsbD_eq
  intro i hi
  have inRange : (n + i) % w < w := Nat.mod_lt _ (Nat.zero_lt_of_lt hi)
  simp [BitVec.getMsbD_rotateLeft, hi, inRange, Nat.add_assoc]

/-- Rotating all the way round, any number of times, changes nothing, at every width. -/
theorem rotateLeft_of_dvd {w k : Nat} (x : BitVec w) (h : w ∣ k) : x.rotateLeft k = x := by
  apply BitVec.eq_of_getMsbD_eq
  intro i hi
  obtain ⟨q, rfl⟩ := h
  simp [BitVec.getMsbD_rotateLeft, hi, Nat.mod_eq_of_lt hi]

/-- Rotating nine bits by one brings the highest to the lowest place. -/
theorem rotateLeft_one_cons (c : Bool) (a : Byte) : (BitVec.cons c a).rotateLeft 1 = BitVec.concat a c := by
  apply BitVec.eq_of_getLsbD_eq
  intro i hi
  rw [BitVec.getLsbD_rotateLeft, BitVec.getLsbD_concat, BitVec.getLsbD_cons, BitVec.getLsbD_cons]
  cases i with
  | zero => rfl
  | succ i => simp [hi, show i ≠ 8 by omega]

/-- A byte is its bit 7 and the seven bits below. -/
theorem cons_bit7_eq (a : Byte) : BitVec.cons (a.getLsbD 7) (a.extractLsb' 0 7) = a :=
  BitVec.cons_msb_setWidth a

/-- C and A after RLC are the nine bits before it, rotated by one (41_arithmetic_logic.md R148). -/
theorem cons_rlc8 (c : Bool) (a : Byte) :
    BitVec.cons (rlc8 c a).c (rlc8 c a).value = (BitVec.cons c a).rotateLeft 1 := by
  have value : (rlc8 c a).value = BitVec.concat (a.extractLsb' 0 7) c := rfl
  have carry : (rlc8 c a).c = a.getLsbD 7 := rfl
  calc BitVec.cons (rlc8 c a).c (rlc8 c a).value
    _ = BitVec.cons (a.getLsbD 7) (BitVec.concat (a.extractLsb' 0 7) c) := by rw [value, carry]
    _ = BitVec.concat (BitVec.cons (a.getLsbD 7) (a.extractLsb' 0 7)) c :=
      (BitVec.cons_append (a.extractLsb' 0 7) (BitVec.ofBool c) (a.getLsbD 7)).symm
    _ = BitVec.concat a c := by rw [cons_bit7_eq]
    _ = (BitVec.cons c a).rotateLeft 1 := (rotateLeft_one_cons c a).symm

/-- The nine bits that RLC rotates: C above A (41_arithmetic_logic.md R148). -/
def nineBits (s : State) : BitVec 9 := BitVec.cons s.cFlag s.regs.a

theorem nineBits_inj {s t : State} (h : nineBits t = nineBits s) : t.cFlag = s.cFlag ∧ t.regs.a = s.regs.a := by
  constructor
  · simpa [nineBits] using congrArg BitVec.msb h
  · simpa [nineBits] using congrArg (BitVec.setWidth 8) h

/-- RLC rotates the nine bits by one and writes no other register (41_arithmetic_logic.md R148). -/
theorem exec_rlcA_next {s t : State} (h : exec .rlcA s = .next t) :
    (∃ v, t.regs = s.regs.set .a v) ∧ nineBits t = (nineBits s).rotateLeft 1 := by
  obtain rfl := Host.Outcome.next.inj h
  refine ⟨⟨_, rfl⟩, ?_⟩
  rw [nineBits, nineBits, ← cons_rlc8]
  congr 1
  exact setZC_cFlag (s.setReg .a _) _ _

/-- From `s` to `t` the nine bits have been rotated `k` times, and no other register has been written. -/
structure RotatedBy (k : Nat) (s t : State) : Prop where
  others : ∃ v, t.regs = s.regs.set .a v
  bits : nineBits t = (nineBits s).rotateLeft k

theorem RotatedBy.zero (s : State) : RotatedBy 0 s s where
  others := ⟨s.regs.a, rfl⟩
  bits := (rotateLeft_of_dvd _ (dvd_zero 9)).symm

/-- One more RLC is one more rotation. -/
theorem RotatedBy.next {k : Nat} {s t u : State} (h : RotatedBy k s t) (run : exec .rlcA t = .next u) :
    RotatedBy (k + 1) s u := by
  obtain ⟨⟨v, ht⟩, bits⟩ := h
  obtain ⟨⟨w, hu⟩, rotated⟩ := exec_rlcA_next run
  exact ⟨⟨w, by rw [hu, ht]; rfl⟩, by rw [rotated, bits, rotateLeft_rotateLeft]⟩

/-- Nine rotations of nine bits are none. -/
theorem RotatedBy.nine_restores {s t : State} (h : RotatedBy 9 s t) : t.regs = s.regs ∧ t.cFlag = s.cFlag := by
  obtain ⟨⟨v, hregs⟩, bits⟩ := h
  obtain ⟨carry, acc⟩ := nineBits_inj (bits.trans (rotateLeft_of_dvd _ dvd_rfl))
  have hv : v = s.regs.a := by rw [← acc, hregs]; rfl
  exact ⟨by rw [hregs, hv]; rfl, carry⟩

/-- Settles O22: nine times one rotation of nine bits. -/
theorem nineRotationsRestore : Obligations.NineRotationsRestore :=
  fun s _ _ _ _ _ _ _ _ _ h1 h2 h3 h4 h5 h6 h7 h8 h9 =>
    ((RotatedBy.zero s).next h1 |>.next h2 |>.next h3 |>.next h4 |>.next h5 |>.next h6 |>.next h7 |>.next h8
      |>.next h9).nine_restores

end Sys2Proof.Machine
end

section
/-! The conditional branches (42_conditional_branch.md): their targets as sums of numbers, the first byte of the one-byte
forms, and from them the effect of each instruction. -/

namespace Sys2Proof.Machine

/-! ### Targets and first bytes, as numbers -/

/-- Addresses are added modulo 4096 and a displacement of any width counts as signed (30_encoding.md R88, R89). -/
theorem add_signExtend_eq {w : Nat} (p n : PAddr) (d : BitVec w) :
    p + n + d.signExtend 12 = BitVec.ofInt 12 ((p.toNat : Int) + n.toNat + d.toInt) := by
  have address (a : PAddr) : BitVec.ofInt 12 (a.toNat : Int) = a := by
    rw [BitVec.ofInt_natCast, BitVec.ofNat_toNat, BitVec.setWidth_eq]
  rw [BitVec.ofInt_add, BitVec.ofInt_add, address, address, BitVec.signExtend]

/-- The target of a one-byte branch (30_encoding.md R88). -/
theorem shortTarget_eq (s : State) (e : Disp5) :
    shortTarget s e = BitVec.ofInt 12 ((s.pc.toNat : Int) + 1 + e.toInt) :=
  add_signExtend_eq s.pc 1#12 e

/-- The target of JRR and JRS, for every value of `BT_BASE` (30_encoding.md R89). -/
theorem bitTestTarget_eq (s : State) (ee : Byte) :
    bitTestTarget s ee = BitVec.ofInt 12 ((s.pc.toNat : Int) + (btBaseOffset s.device.btBase).toNat + ee.toInt) :=
  add_signExtend_eq s.pc (btBaseOffset s.device.btBase) ee

/-- A byte of a 5-bit field above a 3-bit field is eight times the one plus the other (30_encoding.md R82). -/
theorem disp5_append_eq (e : Disp5) (c : BitVec 3) : (e ++ c : Byte) = BitVec.ofNat 8 (e.toNat * 8 + c.toNat) := by
  have fields : (e ++ c).toNat = e.toNat * 8 + c.toNat := by
    rw [BitVec.toNat_append, ← Nat.shiftLeft_add_eq_or_of_lt c.isLt, Nat.shiftLeft_eq]
  rw [← fields, BitVec.ofNat_toNat, BitVec.setWidth_eq]

/-! ### The two common rules -/

/-- The common rule of the one-byte branches: whatever is tested, the pc alone changes (42_conditional_branch.md R170). -/
theorem branchIf_eq {taken : Bool} {P : Prop} [Decidable P] (h : taken = true ↔ P) (e : Disp5) (s : State) :
    branchIf taken e s = .next { s with
      pc := if P then BitVec.ofInt 12 ((s.pc.toNat : Int) + 1 + e.toInt) else s.pc + 1#12 } := by
  rw [branchIf, ← shortTarget_eq]
  by_cases hP : P
  case pos => rw [if_pos (h.2 hP), if_pos hP, State.setPc]
  case neg => rw [if_neg (mt h.1 hP), if_neg hP, advance_eq, State.setPc]

/-- The common rule of JRR and JRS: the flags get the tested bit as C in both cases, with Z as it was before the read
(42_conditional_branch.md R175). -/
theorem branchOnBit_eq (t : Bool) (b : BitNo) (rr ee : Byte) (s : State) :
    branchOnBit t b rr ee s = .next { afterRead s rr with
      flags := s.flags.setActive s.mode ⟨s.zFlag, (dataValue s rr).getLsbD b.toNat⟩
      pc := if (dataValue s rr).getLsbD b.toNat = t
        then BitVec.ofInt 12 ((s.pc.toNat : Int) + (btBaseOffset s.device.btBase).toNat + ee.toInt)
        else s.pc + 3#12 } := by
  have flags : ((afterRead s rr).setZC s.zFlag (bitOf (dataValue s rr) b)).flags =
      s.flags.setActive s.mode ⟨s.zFlag, (dataValue s rr).getLsbD b.toNat⟩ := by
    rw [setZC_flags, afterRead_flags, afterRead_mode, bitOf]
  rw [branchOnBit, setC_eq, afterRead_zFlag, bitTestTarget_eq, ← flags]
  rfl

/-- Settles O23: JRNZ and JRNC test for a flag of 0, JRZ and JRC for a flag of 1. -/
theorem flagBranchesMovePc : Obligations.FlagBranchesMovePc := fun s e =>
  have whenClear (flag : Bool) : (!flag) = true ↔ flag = false := by rw [Bool.not_eq_true']
  ⟨branchIf_eq (whenClear s.zFlag) e s, branchIf_eq (whenClear s.cFlag) e s, branchIf_eq Iff.rfl e s,
    branchIf_eq Iff.rfl e s, congrArg ([·]) (disp5_append_eq e 0b000#3), congrArg ([·]) (disp5_append_eq e 0b010#3),
    congrArg ([·]) (disp5_append_eq e 0b100#3), congrArg ([·]) (disp5_append_eq e 0b110#3)⟩

/-- Settles O24: JRR is the common rule for a bit of 0, JRS for a bit of 1. -/
theorem bitBranchesTestOneBit : Obligations.BitBranchesTestOneBit := fun s b rr ee =>
  ⟨branchOnBit_eq false b rr ee s, branchOnBit_eq true b rr ee s⟩

end Sys2Proof.Machine
end

section
/-! The bit manipulation instructions (43_bit_manipulation.md): their first bytes by bit number, the two changes of a
byte bit by bit, what reading, changing and writing back a byte leaves, and from them the effect of each instruction. -/

namespace Sys2Proof.Machine

/-! ### First bytes -/

/-- The first bytes of `RES b,rr` by bit number (30_encoding.md R84). -/
theorem res_firstByte_eq (b : BitNo) :
    rev3 b ++ 0b01011#5 =
      [0x0B#8, 0x8B#8, 0x4B#8, 0xCB#8, 0x2B#8, 0xAB#8, 0x6B#8, 0xEB#8].getD b.toNat 0#8 := by
  induction b using bitNo_cases <;> rfl

/-- The first bytes of `SET b,rr` by bit number (30_encoding.md R84). -/
theorem set_firstByte_eq (b : BitNo) :
    rev3 b ++ 0b11011#5 =
      [0x1B#8, 0x9B#8, 0x5B#8, 0xDB#8, 0x3B#8, 0xBB#8, 0x7B#8, 0xFB#8].getD b.toNat 0#8 := by
  induction b using bitNo_cases <;> rfl

/-! ### Bits of a changed byte -/

/-- The byte of one bit has that bit alone. -/
theorem oneBit_getLsbD (b n : BitNo) : (oneBit b).getLsbD n.toNat = decide (n = b) := by
  have inByte : b.toNat < 8 := b.isLt
  rw [oneBit, ← BitVec.twoPow_eq, BitVec.getLsbD_twoPow, decide_eq_true inByte, Bool.true_and,
    decide_eq_decide.2 (eq_comm.trans BitVec.toNat_inj)]

/-- Bit by bit, what RES does to a byte (43_bit_manipulation.md R190). -/
theorem clearBit_getLsbD (v : Byte) (b n : BitNo) :
    (v &&& (0xFF#8 ^^^ oneBit b)).getLsbD n.toNat = if n = b then false else v.getLsbD n.toNat := by
  have inByte : n.toNat < 8 := n.isLt
  have mask : 0xFF#8 ^^^ oneBit b = ~~~oneBit b := BitVec.allOnes_xor
  rw [mask, BitVec.getLsbD_and, BitVec.getLsbD_not, oneBit_getLsbD]
  by_cases h : n = b <;> simp [h, inByte]

/-- Bit by bit, what SET does to a byte (43_bit_manipulation.md R191). -/
theorem setBit_getLsbD (v : Byte) (b n : BitNo) :
    (v ||| oneBit b).getLsbD n.toNat = if n = b then true else v.getLsbD n.toNat := by
  rw [BitVec.getLsbD_or, oneBit_getLsbD]
  by_cases h : n = b <;> simp [h]

/-! ### The common rule -/

/-- The common rule of RES and SET: one read, one write, and the pc moves on by 2 (43_bit_manipulation.md R192). -/
theorem changeByte_eq (f : Byte → Byte) (rr : Byte) (s : State) :
    changeByte f rr s = .next { writeData (afterRead s rr) rr (f (dataValue s rr)) with pc := s.pc + 2#12 } := by
  rw [changeByte, advance_eq, writeData_pc, afterRead_pc, State.setPc]

/-- On core registers and RAM the changed byte is read back (20_memory.md R55; 43_bit_manipulation.md R192). -/
theorem dataValue_of_changeByte (f : Byte → Byte) {rr : Byte} {s t : State}
    (hp : (∃ r, s.place rr = .core r) ∨ s.place rr = .device .ram) (run : changeByte f rr s = .next t) :
    dataValue t rr = f (dataValue s rr) := by
  obtain rfl := Host.Outcome.next.inj run
  have place : (afterRead s rr).place rr = s.place rr := place_congr (afterRead_device s rr) (afterRead_control s rr) rr
  have written := writeData_storedByte_same (s := afterRead s rr) (f (dataValue s rr)) (place ▸ hp)
  exact (dataValue_of_stored ((storedByte_congr rr rfl rfl rfl rfl rfl rfl).trans written)).1

/-- Settles O29: a written form has the bytes and the effect of RES or SET, which are the common rule. -/
theorem bitInstructionsWriteByteBack : Obligations.BitInstructionsWriteByteBack := by
  refine fun s i b rr => ⟨fun h => ?res, fun h => ?set⟩
  case res =>
    obtain ⟨bytes, effect⟩ := encode_exec_of_expand h s
    exact ⟨bytes.trans (congrArg ([·, rr]) (res_firstByte_eq b)),
      effect.trans (changeByte_eq (fun v => v &&& (0xFF#8 ^^^ oneBit b)) rr s)⟩
  case set =>
    obtain ⟨bytes, effect⟩ := encode_exec_of_expand h s
    exact ⟨bytes.trans (congrArg ([·, rr]) (set_firstByte_eq b)),
      effect.trans (changeByte_eq (fun v => v ||| oneBit b) rr s)⟩

/-- Settles O30: the byte read back is the changed one, which differs in the named bit alone. -/
theorem bitInstructionsChangeOneBit : Obligations.BitInstructionsChangeOneBit := by
  refine fun s t b rr hp => ⟨fun run n => ?res, fun run n => ?set⟩
  case res =>
    have readBack : dataValue t rr = dataValue s rr &&& (0xFF#8 ^^^ oneBit b) :=
      dataValue_of_changeByte (fun v => v &&& (0xFF#8 ^^^ oneBit b)) hp run
    rw [readBack, clearBit_getLsbD]
  case set =>
    have readBack : dataValue t rr = dataValue s rr ||| oneBit b :=
      dataValue_of_changeByte (fun v => v ||| oneBit b) hp run
    rw [readBack, setBit_getLsbD]

end Sys2Proof.Machine
end

section
/-! The control instructions (44_control.md) and the written forms that have pages of their own: what a return does with
an empty and with a filled stack, what the forms on A read, and from them the effect of each instruction. -/

namespace Sys2Proof.Machine

/-! ### Returning -/

/-- With nothing stacked a return falls through (44_control.md R201). -/
theorem popAndReturn_of_empty {s : State} (h : s.stack.level = 0) :
    popAndReturn s = { s with pc := s.pc + 1#12 } := by
  rcases popAndReturn_cases s with ⟨-, falls⟩ | ⟨filled, -⟩
  · exact falls
  · exact absurd h filled.ne'

/-- With an address stacked a return goes there; the cells move up and level 6 keeps its bits (10_state.md R30). -/
theorem popAndReturn_of_stacked {s : State} (h : 0 < s.stack.level) :
    popAndReturn s = { s with
      stack := { l1 := s.stack.l2, l2 := s.stack.l3, l3 := s.stack.l4, l4 := s.stack.l5, l5 := s.stack.l6,
                 l6 := s.stack.l6, level := s.stack.level - 1 }
      pc := s.stack.l1 } := by
  rcases popAndReturn_cases s with ⟨empty, -⟩ | ⟨-, pops⟩
  · exact absurd empty h.ne'
  · exact pops

/-- RET, on any stack: the return and nothing else (44_control.md R201). -/
theorem execRet_eq (s : State) : execRet s = .next (popAndReturn s) := rfl

/-- RETI, on any stack: the mode to go back from is that before the return (44_control.md R202). -/
theorem execReti_eq (s : State) : execReti s = .next { popAndReturn s with mode := modeOnReturn s.mode } := rfl

/-- Settles O31: RET is the return alone. -/
theorem retPopsPc : Obligations.RetPopsPc := by
  refine fun s => ⟨fun h => ?empty, fun h => ?stacked, rfl⟩
  case empty => exact (execRet_eq s).trans (by rw [popAndReturn_of_empty h])
  case stacked => exact (execRet_eq s).trans (by rw [popAndReturn_of_stacked h])

/-- Settles O32: RETI is the return, and then the mode of the state before steps back. -/
theorem retiStepsModeBack : Obligations.RetiStepsModeBack := by
  refine fun s => ⟨fun h => ?empty, fun h => ?stacked, rfl, rfl, rfl, rfl⟩
  case empty => exact (execReti_eq s).trans (by rw [popAndReturn_of_empty h])
  case stacked => exact (execReti_eq s).trans (by rw [popAndReturn_of_stacked h])

/-! ### Stopping and waiting -/

/-- STOP, by whether the watchdog function is selected (44_control.md R205). -/
theorem execStop_eq (s : State) :
    execStop s = .next { s with
      pc := s.pc + 1#12, run := if s.device.watchdogSelected then .waiting else .stopped } := rfl

/-- Settles O33: STOP has two cases, and WAIT has one. -/
theorem stopAndWaitChangeRunState : Obligations.StopAndWaitChangeRunState := by
  refine fun s => ⟨fun h => ?stops, fun h => ?waits, rfl⟩
  case stops => exact (execStop_eq s).trans (by rw [h, if_neg Bool.false_ne_true])
  case waits => exact (execStop_eq s).trans (by rw [h, if_pos rfl])

/-! ### Written forms with pages of their own -/

/-- A branch by displacement 0 goes to the next instruction, taken or not (44_control.md R200). -/
theorem branchIf_zero (taken : Bool) (s : State) : branchIf taken 0x00#5 s = .next { s with pc := s.pc + 1#12 } := by
  have target : shortTarget s 0x00#5 = s.pc + 1#12 := BitVec.add_zero (s.pc + 1#12)
  rw [branchIf, target, advance_eq, ite_self, State.setPc]

/-- An operation on A and A itself, which is the byte at 0FFh and is read without side effect (10_state.md R20). -/
theorem aluA_accumulator (f : State → Byte → Byte → AluResult) (s : State) :
    aluA f (.direct 0xFF#8) s = resultToA s (f s s.regs.a s.regs.a) 2#12 := by
  have value : dataValue s 0xFF#8 = s.regs.a := dataValue_regAddr s .a
  have unchanged : afterRead s 0xFF#8 = s := afterRead_regAddr s .a
  rw [aluA_direct, value, unchanged]

/-- `Sub8` of a byte and itself: 0, no borrow (41_arithmetic_logic.md R136). -/
theorem sub8_self (a : Byte) : sub8 a a = ⟨0x00#8, false, true⟩ := by
  rw [sub8, BitVec.sub_self, decide_eq_false (lt_irrefl _), beq_self_eq_true]

/-- Doubling a byte carries exactly if bit 7 is set (41_arithmetic_logic.md R149). -/
theorem carry_of_double (a : Byte) : decide (256 ≤ 2 * a.toNat) = a.getLsbD 7 := by
  have bit7 : a.getLsbD 7 = true ↔ 256 ≤ 2 * a.toNat := BitVec.msb_eq_true_iff_two_mul_ge (x := a)
  exact Bool.eq_iff_iff.2 (decide_eq_true_iff.trans bit7.symm)

/-- Settles O35: a branch by 0, A minus A, a load of 0, and A plus A. -/
theorem pseudoInstructionEffects : Obligations.PseudoInstructionEffects := by
  refine fun s => ⟨?nop, ?clrA, fun rr => ?clrDir, ?slaA⟩
  case nop => exact branchIf_zero s.zFlag s
  case clrA =>
    have run : exec .clrA s = resultToA s (sub8 s.regs.a s.regs.a) 2#12 := aluA_accumulator (fun _ => sub8) s
    rw [run, sub8_self, resultToA, accResult_eq]
  case clrDir => exact execLdiDir_eq rr 0x00#8 s
  case slaA =>
    have run : exec .slaA s = resultToA s (add8 s.regs.a s.regs.a) 2#12 := aluA_accumulator (fun _ => add8) s
    rw [run, resultToA_add8, ← two_mul, carry_of_double]

end Sys2Proof.Machine
end

section
/-! The jump and call instructions (45_jump_call.md): the bytes of an extended address, what a push and the jump after it
do for each state of the stack, and from them the effect of each instruction. -/

namespace Sys2Proof.Machine

/-! ### The bytes of an extended address, as numbers -/

/-- Two fields side by side: the upper one counts in steps of the size of the lower one (30_encoding.md R82). -/
theorem append_eq_ofNat {v w : Nat} (x : BitVec v) (y : BitVec w) :
    x ++ y = BitVec.ofNat (v + w) (x.toNat * 2 ^ w + y.toNat) := by
  have fields : (x ++ y).toNat = x.toNat * 2 ^ w + y.toNat := by
    rw [BitVec.toNat_append, ← Nat.shiftLeft_add_eq_or_of_lt y.isLt, Nat.shiftLeft_eq]
  rw [← fields, BitVec.ofNat_toNat, BitVec.setWidth_eq]

/-- The row of the first byte holds the low four bits of the address (30_encoding.md R90). -/
theorem address_lowNibble_toNat (abc : PAddr) : (abc.extractLsb' 0 4).toNat = abc.toNat % 16 :=
  BitVec.extractLsb'_toNat 0 4 abc

/-- The second byte holds the upper eight bits of the address (30_encoding.md R90). -/
theorem address_highByte_eq (abc : PAddr) : abc.extractLsb' 4 8 = BitVec.ofNat 8 (abc.toNat / 16) :=
  congrArg (BitVec.ofNat 8) (Nat.shiftRight_eq_div_pow abc.toNat 4)

/-! ### Pushes -/

/-- A push on a stack with a free cell moves the cells down, for every `STACK_OVERFLOW` (10_state.md R29). -/
theorem pushed_eq_of_free {k : Stack} (h : k.level < 6) (o : StackOverflow) (v : PAddr) :
    pushed o k v = some { l1 := v, l2 := k.l1, l3 := k.l2, l4 := k.l3, l5 := k.l4, l6 := k.l5, level := k.level + 1 } :=
  if_pos h

theorem pushed_dropNew_of_full {k : Stack} (h : 6 ≤ k.level) (v : PAddr) : pushed .dropNew k v = some k :=
  if_neg h.not_gt

theorem pushed_overwriteTop_of_full {k : Stack} (h : 6 ≤ k.level) (v : PAddr) :
    pushed .overwriteTop k v = some { k with l1 := v } :=
  if_neg h.not_gt

/-- Where the push succeeds, the stack and the pc alone change (45_jump_call.md R220). -/
theorem pushAndGo_of_pushed {s : State} {k : Stack} {v : PAddr} (h : pushed s.device.stackOverflow s.stack v = some k)
    (a : PAddr) : pushAndGo s v a = .next { s with stack := k, pc := a } := by
  rw [pushAndGo, h]
  rfl

/-- Where the push fails, there is no next state. -/
theorem pushAndGo_of_not_pushed {s : State} {v : PAddr} (h : pushed s.device.stackOverflow s.stack v = none)
    (a : PAddr) : pushAndGo s v a = .fault .stackOverflow := by
  rw [pushAndGo, h]

/-! ### Jumping and calling -/

/-- CALL pushes the address of the next instruction (45_jump_call.md R220; 92_eei_decisions.md D5). -/
theorem exec_call_eq (s : State) (abc : PAddr) : exec (.call abc) s = pushAndGo s (s.pc + 2#12) abc := rfl

/-- Settles O25: the effect is that of `State.setPc`, and the bytes are the parts of the address. -/
theorem jumpReplacesPc : Obligations.JumpReplacesPc := by
  refine fun s abc => ⟨rfl, ?bytes⟩
  case bytes =>
    have parts : encode (.jp abc) = [abc.extractLsb' 0 4 ++ 0x9#4, abc.extractLsb' 4 8] := rfl
    rw [parts, append_eq_ofNat, address_lowNibble_toNat, address_highByte_eq]
    rfl

/-- Settles O26: with a free cell the push succeeds for every `STACK_OVERFLOW`. -/
theorem callStacksReturnAddress : Obligations.CallStacksReturnAddress := fun s abc h =>
  (exec_call_eq s abc).trans (pushAndGo_of_pushed (pushed_eq_of_free h s.device.stackOverflow (s.pc + 2#12)) abc)

/-- Settles O27, by what the push on a full stack leaves for each `STACK_OVERFLOW`. -/
theorem callOnFullStack : Obligations.CallOnFullStack := by
  refine fun s abc h => ⟨fun ho => ?fault, fun ho => ?dropNew, fun ho => ?overwriteTop⟩ <;> rw [exec_call_eq]
  case fault => exact pushAndGo_of_not_pushed (pushed_eq_none.2 ⟨h, ho⟩) abc
  case dropNew => exact pushAndGo_of_pushed (ho ▸ pushed_dropNew_of_full h _) abc
  case overwriteTop => exact pushAndGo_of_pushed (ho ▸ pushed_overwriteTop_of_full h _) abc

/-- Settles O28: the RET finds the address that the CALL put in level 1, and moves the cells below it up again. -/
theorem retAfterCallReturns : Obligations.RetAfterCallReturns := by
  intro s t abc p free called
  obtain ⟨-, returns, -⟩ := retPopsPc { t with pc := p }
  rw [callStacksReturnAddress s abc free] at called
  cases called
  exact ⟨_, returns (Nat.succ_pos s.stack.level), rfl, rfl, rfl⟩

end Sys2Proof.Machine
end

section
/-! Boundaries, interrupts and exceptions (60_exceptions.md): which request is acceptable and which is chosen, what is
fetched at the pc, which of its sorts a step is, what an entry does with the pc, and that nothing else stops an
instruction. -/

namespace Sys2Proof.Machine

/-! ### Acceptable requests -/

/-- Only in Normal mode are #1 to #4 not masked (60_exceptions.md R242). -/
theorem interruptMask_eq_false {m : Mode} : m.interruptMask = false ↔ m = .normal := by
  cases m <;> simp [Mode.interruptMask]

/-- In the two NMI modes alone the NMI is masked (60_exceptions.md R242). -/
theorem nmiMask_eq_false {m : Mode} : m.nmiMask = false ↔ m = .normal ∨ m = .int := by
  cases m <;> simp [Mode.nmiMask]

/-- A stopped core is presented requests from external sources alone (60_exceptions.md R251). -/
theorem isPending_iff {s : State} {n : Request} :
    isPending s n = true ↔ n ∈ (presented s).pending ∧ (s.run = .stopped → n ∈ s.device.external) := by
  simp [isPending, imp_iff_not_or]

/-- The masks of the mode and the two enables (60_exceptions.md R234). -/
theorem isUnmasked_iff {s : State} {n : Request} : isUnmasked s n = true ↔
    if n = .nmi then (s.mode = .normal ∨ s.mode = .int) ∧ (presented s).nmiEnabled = true
    else s.mode = .normal ∧ (presented s).intEnabled = true := by
  cases n <;> simp [isUnmasked, interruptMask_eq_false, nmiMask_eq_false]

/-- Settles O50: acceptable is presented and not masked. -/
theorem acceptanceFollowsModeAndEnables : Obligations.AcceptanceFollowsModeAndEnables := by
  intro s n
  rw [accepts, Bool.and_eq_true, isPending_iff, isUnmasked_iff, and_assoc]

/-! ### The choice among them -/

/-- In a list whose ranks rise, the first element with a property is the one of lowest rank that has it. -/
theorem find?_eq_some_of_rising {α : Type} {rank : α → Nat} {p : α → Bool} {l : List α} {a : α}
    (rising : l.Pairwise fun x y => rank x < rank y) :
    l.find? p = some a ↔ a ∈ l ∧ p a = true ∧ ∀ b ∈ l, p b = true → rank a ≤ rank b := by
  induction l with
  | nil => simp
  | cons x xs ih =>
    obtain ⟨first, rising⟩ := List.pairwise_cons.1 rising
    cases hx : p x with
    | true =>
      rw [List.find?_cons_of_pos hx, Option.some.injEq]
      constructor
      · rintro rfl
        exact ⟨List.mem_cons_self, hx, List.forall_mem_cons.2 ⟨fun _ => le_rfl, fun b hb _ => (first b hb).le⟩⟩
      · rintro ⟨ha, -, lowest⟩
        obtain rfl | ha := List.mem_cons.1 ha
        · rfl
        · exact absurd (lowest x List.mem_cons_self hx) (first a ha).not_ge
    | false =>
      rw [List.find?_cons_of_neg (by simp [hx]), ih rising]
      constructor
      · rintro ⟨ha, hpa, lowest⟩
        exact ⟨List.mem_cons_of_mem x ha, hpa, List.forall_mem_cons.2 ⟨by simp [hx], lowest⟩⟩
      · rintro ⟨ha, hpa, lowest⟩
        have hax : a ≠ x := by
          rintro rfl
          simp [hx] at hpa
        exact ⟨List.mem_of_ne_of_mem hax ha, hpa, (List.forall_mem_cons.1 lowest).2⟩

/-- The order of priority is that of the numbers (60_exceptions.md R235). -/
theorem byPriority_rising : byPriority.Pairwise fun m n => requestNumber m < requestNumber n := by decide

theorem mem_byPriority (n : Request) : n ∈ byPriority := by cases n <;> decide

/-- Settles O51: every request is in the list of priorities, by rising number. -/
theorem lowestNumberIsChosen : Obligations.LowestNumberIsChosen := by
  intro s n
  simp [chosen, find?_eq_some_of_rising byPriority_rising, mem_byPriority]

theorem chosen_eq_none {s : State} : chosen s = none ↔ ∀ m, accepts s m = false := by
  simp [chosen, mem_byPriority]

/-! ### Fetching -/

theorem fetchInstr_pastBoundary (s : State) : fetchInstr (pastBoundary s) = fetchInstr s :=
  fetchInstr_congr rfl rfl rfl rfl

/-- As many bytes decode to an instruction, with none left, as the first of them says (30_encoding.md R80). -/
theorem length_of_decode {op : Byte} {vs : List Byte} {i : Instr} (h : decode (op :: vs) = .ok (i, [])) :
    (op :: vs).length = instrLength op := by
  simp only [decode] at h
  split at h
  case h_1 hl => cases h; exact hl.symm
  case h_2 hl => cases h; exact hl.symm
  case h_3 hl => cases h; exact hl.symm
  case h_4 => cases h

theorem fetchByte_of_fetchBytes {s : State} {a : PAddr} {n : Nat} {v : Byte} {vs : List Byte}
    (h : fetchBytes s a (n + 1) = .ok (v :: vs)) : fetchByte s a = some v := by
  cases hv : fetchByte s a with
  | none => simp [fetchBytes, hv] at h
  | some w =>
    cases hvs : fetchBytes s (a + 1#12) n with
    | error e => simp [fetchBytes, hv, hvs] at h
    | ok ws =>
      obtain ⟨rfl, -⟩ : w = v ∧ ws = vs := by simpa [fetchBytes, hv, hvs] using h
      rfl

/-- The instruction that the bytes at the pc decode to is fetched. -/
theorem fetchInstr_of_decode {s : State} {bytes : List Byte} {i : Instr}
    (fetched : fetchBytes s s.pc bytes.length = .ok bytes) (decoded : decode bytes = .ok (i, [])) :
    fetchInstr s = .ok i := by
  cases bytes with
  | nil => cases decoded
  | cons op vs =>
    have opcode : fetchByte s s.pc = some op := fetchByte_of_fetchBytes fetched
    rw [length_of_decode decoded] at fetched
    simp [fetchInstr, opcode, fetched, decoded]

theorem nextAddress_add (a : PAddr) (j : Nat) : a + 1#12 + BitVec.ofNat 12 j = a + BitVec.ofNat 12 (j + 1) := by
  rw [BitVec.add_assoc, Nat.add_comm, BitVec.ofNat_add]

/-- Fetching stops at the first byte that is not implemented (20_memory.md R69). -/
theorem fetchBytes_of_missing {s : State} {a : PAddr} {n k : Nat} (hk : k < n)
    (before : ∀ j, j < k → fetchByte s (a + BitVec.ofNat 12 j) ≠ none)
    (missing : fetchByte s (a + BitVec.ofNat 12 k) = none) :
    fetchBytes s a n = .error (a + BitVec.ofNat 12 k) := by
  induction n generalizing a k with
  | zero => exact absurd hk k.not_lt_zero
  | succ n ih =>
    cases k with
    | zero =>
      rw [BitVec.add_zero] at missing ⊢
      simp [fetchBytes, missing]
    | succ k =>
      obtain ⟨v, hv⟩ := Option.ne_none_iff_exists'.1 (before 0 k.succ_pos)
      rw [BitVec.add_zero] at hv
      have rest : fetchBytes s (a + 1#12) n = .error (a + BitVec.ofNat 12 (k + 1)) := by
        rw [← nextAddress_add a k] at missing ⊢
        refine ih (Nat.lt_of_succ_lt_succ hk) (fun j hj => ?_) missing
        rw [nextAddress_add]
        exact before (j + 1) (Nat.succ_lt_succ hj)
      simp [fetchBytes, hv, rest]

/-- Without a first byte there is no instruction. -/
theorem fetchInstr_of_opcode_missing {s : State} (h : fetchByte s s.pc = none) : fetchInstr s = .error s.pc := by
  simp [fetchInstr, h]

theorem fetchInstr_of_fetchBytes_error {s : State} {op : Byte} {a : PAddr} (opcode : fetchByte s s.pc = some op)
    (h : fetchBytes s s.pc (instrLength op) = .error a) : fetchInstr s = .error a := by
  simp [fetchInstr, opcode, h]

/-! ### The sorts of a step -/

theorem stepSort_of_chosen {s : State} {n : Request} (noReset : (presented s).reset = false)
    (choice : chosen s = some n) : stepSort s = .interrupt n := by
  simp [stepSort, noReset, choice]

theorem stepSort_of_running {s : State} (noReset : (presented s).reset = false) (noRequest : ∀ m, accepts s m = false)
    (running : s.run = .running) : stepSort s = .execute := by
  simp [stepSort, noReset, chosen_eq_none.2 noRequest, running]

theorem stepSort_of_not_running {s : State} (noReset : (presented s).reset = false)
    (noRequest : ∀ m, accepts s m = false) (notRunning : s.run ≠ .running) : stepSort s = .idle := by
  simp [stepSort, noReset, chosen_eq_none.2 noRequest, notRunning]

theorem step_of_reset {s : State} (h : (presented s).reset = true) :
    step s = .next (resetInput (pastBoundary s)) := by
  simp [step, stepSort, h]

theorem step_of_chosen {s : State} {n : Request} (noReset : (presented s).reset = false)
    (choice : chosen s = some n) : step s = takeInterrupt n (pastBoundary s) := by
  simp [step, stepSort_of_chosen noReset choice]

theorem step_of_fetched {s : State} {i : Instr} (executes : stepSort s = .execute) (h : fetchInstr s = .ok i) :
    step s = exec i (pastBoundary s) := by
  simp [step, executes, fetchInstr_pastBoundary, h]

theorem step_of_not_fetched {s : State} {a : PAddr} (executes : stepSort s = .execute)
    (h : fetchInstr s = .error a) : step s = .fault (.fetchUnimplemented a) := by
  simp [step, executes, fetchInstr_pastBoundary, h]

theorem step_of_idle {s : State} (h : stepSort s = .idle) : step s = .next (pastBoundary s) := by
  simp [step, h]

/-- Settles O9, clause by clause: the sort of the step, and, of an instruction, what fetching it gives. -/
theorem stepFollowsBoundary : Obligations.StepFollowsBoundary := by
  refine fun s => ⟨step_of_reset, fun n noReset accepted lowest => ?entry,
    fun i noReset noRequest running fetched => ?run,
    fun noReset noRequest running missing => ?noOpcode,
    fun op k noReset noRequest running opcode short before missing => ?noOperand,
    fun noReset noRequest notRunning => ?idle⟩
  case entry => exact step_of_chosen noReset ((lowestNumberIsChosen s n).2 ⟨accepted, lowest⟩)
  case run => exact step_of_fetched (stepSort_of_running noReset noRequest running) fetched
  case noOpcode =>
    exact step_of_not_fetched (stepSort_of_running noReset noRequest running) (fetchInstr_of_opcode_missing missing)
  case noOperand =>
    exact step_of_not_fetched (stepSort_of_running noReset noRequest running)
      (fetchInstr_of_fetchBytes_error opcode (fetchBytes_of_missing short before missing))
  case idle => exact step_of_idle (stepSort_of_not_running noReset noRequest notRunning)

/-- Settles O8: the bytes that decode are the ones that are fetched. -/
theorem stepRunsDecodedInstruction : Obligations.StepRunsDecodedInstruction :=
  fun _ _ _ executes fetched decoded => step_of_fetched executes (fetchInstr_of_decode fetched decoded)

/-- Settles O55: a request that a stopped core is not presented is not acceptable. -/
theorem stoppedCoreIgnoresInternalRequests : Obligations.StoppedCoreIgnoresInternalRequests := by
  intro s stopped noReset internal
  have noRequest (m : Request) : accepts s m = false := by
    refine Bool.eq_false_iff.2 fun accepted => ?_
    obtain ⟨pending, external, -⟩ := (acceptanceFollowsModeAndEnables s m).1 accepted
    exact internal m pending (external stopped)
  exact step_of_idle (stepSort_of_not_running noReset noRequest (by simp [stopped]))

/-! ### The entry to a request -/

/-- `Vector(n)` by the request's number (60_exceptions.md R232). -/
theorem vector_eq (n : Request) :
    vector n = if requestNumber n = 0 then 0xFFC#12 else BitVec.ofNat 12 (0xFF8 - 2 * requestNumber n) := by
  cases n <;> rfl

/-- The mode after an entry, by the request's number (60_exceptions.md R238). -/
theorem modeOnEntry_eq (n : Request) (m : Mode) :
    modeOnEntry n m = if requestNumber n = 0 then (if m = .normal then .nmiFromNormal else .nmiFromInt) else .int := by
  cases n with
  | nmi => cases m <;> rfl
  | int1 | int2 | int3 | int4 => rfl

/-- Where the push succeeds, the entry changes mode, pc, run state, events and stack alone (60_exceptions.md R238). -/
theorem takeInterrupt_of_pushed {s : State} {k : Stack} (h : pushed s.device.stackOverflow s.stack s.pc = some k)
    (n : Request) : takeInterrupt n s = .next { s with
      mode := modeOnEntry n s.mode
      pc := vector n
      run := .running
      events := .acknowledge n :: s.events
      stack := k } :=
  pushAndGo_of_pushed (by simpa using h) (vector n)

theorem takeInterrupt_of_not_pushed {s : State} (h : pushed s.device.stackOverflow s.stack s.pc = none)
    (n : Request) : takeInterrupt n s = .fault .stackOverflow :=
  pushAndGo_of_not_pushed (by simpa using h) (vector n)

/-- Settles O49: the four outcomes are those of the push. -/
theorem interruptEntryEffect : Obligations.InterruptEntryEffect := by
  rintro s t n rfl
  rw [← modeOnEntry_eq, ← vector_eq]
  refine ⟨fun h => ?free, fun h ho => ?fault, fun h ho => ?dropNew, fun h ho => ?overwriteTop⟩
  case free => exact takeInterrupt_of_pushed (pushed_eq_of_free h s.device.stackOverflow s.pc) n
  case fault => exact takeInterrupt_of_not_pushed (pushed_eq_none.2 ⟨h, ho⟩) n
  case dropNew => exact takeInterrupt_of_pushed (ho ▸ pushed_dropNew_of_full h s.pc) n
  case overwriteTop => exact takeInterrupt_of_pushed (ho ▸ pushed_overwriteTop_of_full h s.pc) n

theorem exists_pushed_of_canPush {s : State} (h : CanPush s) (v : PAddr) :
    ∃ k, pushed s.device.stackOverflow s.stack v = some k := by
  refine Option.ne_none_iff_exists'.1 fun fails => ?_
  obtain ⟨full, isFault⟩ := pushed_eq_none.1 fails
  obtain free | goesOn := h
  · exact full.not_gt free
  · exact goesOn isFault

/-- Settles O54: the step is the entry, and its stack is that of the push. -/
theorem acceptedRequestWakesCore : Obligations.AcceptedRequestWakesCore := by
  intro s n _ noReset choice
  rw [step_of_chosen noReset choice]
  refine ⟨fun canPush => ?wakes, fun full ho => ?faults⟩
  case wakes =>
    obtain ⟨k, hk⟩ := exists_pushed_of_canPush canPush s.pc
    refine ⟨_, takeInterrupt_of_pushed (s := pastBoundary s) hk n, rfl, rfl, fun free => ?_, fun full ho => ?_,
      fun full ho => ?_⟩
    · obtain rfl := Option.some.inj (hk.symm.trans (pushed_eq_of_free free _ s.pc))
      exact ⟨rfl, rfl⟩
    · rw [ho] at hk
      exact Option.some.inj (hk.symm.trans (pushed_dropNew_of_full full s.pc))
    · rw [ho] at hk
      exact Option.some.inj (hk.symm.trans (pushed_overwriteTop_of_full full s.pc))
  case faults => exact takeInterrupt_of_not_pushed (s := pastBoundary s) (pushed_eq_none.2 ⟨full, ho⟩) n

/-! ### The return from an entry -/

/-- The mode that RETI gives back after an entry is the one that let the request through (44_control.md R202). -/
theorem modeOnReturn_modeOnEntry {s : State} {n : Request} (h : isUnmasked s n = true) :
    modeOnReturn (modeOnEntry n s.mode) = s.mode := by
  rw [isUnmasked_iff] at h
  split at h
  case isTrue nmi =>
    obtain ⟨normal | int, -⟩ := h
    · rw [nmi, normal]
      rfl
    · rw [nmi, int]
      rfl
  case isFalse other =>
    obtain ⟨normal, -⟩ := h
    rw [normal]
    cases n with
    | nmi => exact absurd rfl other
    | int1 | int2 | int3 | int4 => rfl

/-- Where the pop succeeds, a return changes the stack and the pc alone. -/
theorem popAndReturn_of_popped {s : State} {v : PAddr} {k : Stack} (h : popped s.stack = some (v, k)) :
    popAndReturn s = { s with stack := k, pc := v } := by
  rw [popAndReturn, h]
  rfl

/-- A pop takes back a push on a free cell; the sixth cell is left with what the fifth has. -/
theorem popped_of_pushed {o : StackOverflow} {k k' : Stack} {v : PAddr} (free : k.level < 6)
    (h : pushed o k v = some k') : popped k' = some (v, { k with l6 := k.l5 }) := by
  obtain rfl := Option.some.inj (h.symm.trans (pushed_eq_of_free free o v))
  rfl

/-- Settles O52: the pop gives the address that the entry pushed, and leaves the addresses stacked before it. -/
theorem retiAfterEntryResumes : Obligations.RetiAfterEntryResumes := by
  intro s t u n free unmasked entry mode level stacked pair
  obtain ⟨k, hk, rfl⟩ := takeInterrupt_next entry
  obtain ⟨k', hk', pushedLevel, pushedStack⟩ := pushed_of_free free s.device.stackOverflow s.pc
  obtain rfl := Option.some.inj (hk.symm.trans hk')
  have levels : u.stack.level = s.stack.level + 1 := level.trans pushedLevel
  obtain ⟨r, hr, poppedLevel, poppedStack⟩ := popped_of_stackedAddresses (by omega) (stacked.trans pushedStack)
  have modeBack : modeOnReturn u.mode = s.mode := mode ▸ modeOnReturn_modeOnEntry unmasked
  have runs : exec .reti u = .next { u with stack := r, pc := s.pc, mode := s.mode } :=
    (execReti_eq u).trans (by rw [popAndReturn_of_popped hr, modeBack])
  refine ⟨rfl, rfl, rfl, _, runs, rfl, rfl, congrArg FlagPair.z pair, congrArg FlagPair.c pair, rfl, rfl, rfl,
    by dsimp only; omega, poppedStack, fun same => ?cells⟩
  case cells =>
    have same : u.stack = k := same
    rw [same, popped_of_pushed free hk] at hr
    cases hr
    rfl

/-! ### Completion -/

/-- Settles O11: a plain instruction always has a next state, and of the other five CALL alone can fail, by its push. -/
theorem legalInstructionsComplete : Obligations.LegalInstructionsComplete := by
  intro s i legal canPush
  cases hp : isPlain i with
  | true =>
    obtain ⟨v, z, c, p, runs, -⟩ := exec_shape s i.expand (wellFormed_expand legal) ((isPlain_expand i).trans hp)
    exact ⟨_, (exec_expand i s).trans runs⟩
  | false =>
    obtain ⟨abc, rfl⟩ | rfl | rfl | rfl | rfl := isPlain_eq_false hp
    · obtain ⟨k, hk⟩ := exists_pushed_of_canPush (canPush ⟨abc, rfl⟩) (s.pc + 2#12)
      exact ⟨_, (exec_call_eq s abc).trans (pushAndGo_of_pushed hk abc)⟩
    all_goals exact ⟨_, rfl⟩

end Sys2Proof.Machine
end

section
/-! The reset input (70_reset_and_hazards.md): what it sets, and what of the environment it leaves. -/

namespace Sys2Proof.Machine

/-- The cells after a reset are unspecified, the level is not (10_state.md R42). -/
@[simp] theorem stackAtReset_level (n : Nat) : (stackAtReset n).level = 0 := rfl

/-- The reset input empties the stack, whatever was stacked before it (70_reset_and_hazards.md R270). -/
theorem resetInput_stack_level (s : State) : (resetInput s).stack.level = 0 := by
  rw [resetInput_stack, stackAtReset_level]

/-- Settles O56: the four values that the reset sets, then the four fields that are no state of the core. -/
theorem resetInputEffect : Obligations.ResetInputEffect := fun s =>
  ⟨resetInput_pc s, resetInput_mode s, resetInput_stack_level s, resetInput_run s,
    resetInput_device s, resetInput_rom s, resetInput_inputs s, resetInput_events s⟩

end Sys2Proof.Machine
end
